-- ==== Sys2Proof/Word.lean ====
section
/-! DEFINITION. The words MAFE moves: bytes, command and response words, ports, sensors, slots (spec 00_scope R9 to R11). -/

namespace Sys2Proof

/-- An unsigned byte, the spec's `u8` (R9, R11). -/
abbrev Byte := BitVec 8

/-- A signed two's-complement byte, the spec's `i8` (R9, R11): its value is `BitVec.toInt`. -/
abbrev I8 := BitVec 8

/-- A 16-bit command word (R81). -/
abbrev CommandWord := BitVec 16

/-- A 10-bit response word (R85). -/
abbrev ResponseWord := BitVec 10

/-- A 7-bit I2C device address (R8, R50). -/
abbrev BusAddr := BitVec 7

/-- A multiplexer port, 3 bits, 0 to 7 (R9). -/
abbrev Port := BitVec 3

/-- A logical sensor index, 2 bits, 0 to 3 (R9). -/
abbrev Sensor := BitVec 2

/-- A slot of a sensor's window, 0 to 4: the range of the slot cursor WSLOT (R9, R25). -/
abbrev Slot := Fin 5

end Sys2Proof
end

