-- ==== Sys2Proof/Syntax.lean ====
section
/-! DEFINITION. The five commands of the block, one constructor per row of the opcode table (30_encoding R80, R82). -/

namespace Sys2Proof

/-- A command with its operands as R83 assembles them: no scaling, no sign extension. -/
inductive Instr where
  /-- Select a multiplexer port (R111). -/
  | selport (p : Port)
  /-- Read one sensor register through a port (R113). -/
  | rdreg (p : Port) (r : Byte)
  /-- One acquisition round into slot WSLOT (R143). -/
  | acq
  /-- Filter one sensor's window into OUT; refused unless WFULL = 1 (R168). -/
  | filt (s : Sensor)
  /-- A whole cycle: five rounds and the filter of every sensor (R169). -/
  | run
  deriving DecidableEq, Repr

end Sys2Proof
end

