-- ==== Sys2Proof/WellFormed.lean ====
section
/-! DEFINITION. Which command words are well formed, check by check, and which operands are in the table's range (30_encoding R81, R82, R84). -/

namespace Sys2Proof

/-- The fields of a command word (R81). -/
def CommandWord.op (w : CommandWord) : BitVec 4 := w.extractLsb' 12 4
def CommandWord.z (w : CommandWord) : BitVec 1 := w.extractLsb' 11 1
def CommandWord.a (w : CommandWord) : BitVec 3 := w.extractLsb' 8 3
def CommandWord.reg (w : CommandWord) : Byte := w.extractLsb' 0 8

namespace WellFormed

/-- OP names one of the five commands: 1 to 5 (R82, R84). -/
def opDefined (w : CommandWord) : Bool := decide (1 ≤ w.op.toNat ∧ w.op.toNat ≤ 5)

/-- Bit 11 is 0 (R81, R84). -/
def zClear (w : CommandWord) : Bool := w.z == 0#1

/-- Only RDREG may have a non-zero REG field (R81, R84). -/
def regInRange (w : CommandWord) : Bool := w.op == 2#4 || w.reg == 0#8

/-- The A field is any port for SELPORT and RDREG, a sensor 0 to 3 for FILT, and 0 for ACQ and RUN (R81, R82, R84). -/
def aInRange (w : CommandWord) : Bool :=
  w.op == 1#4 || w.op == 2#4 || w.a == 0#3 || (w.op == 4#4 && decide (w.a.toNat < 4))

/-- The word is one of the accepted command words. -/
def word (w : CommandWord) : Bool := opDefined w && zClear w && regInRange w && aInRange w

end WellFormed

/-- Every operand lies in the range the opcode table gives it (R82, R83). The operand types carry these ranges, so every
`Instr` meets it (`Laws.instr_wellFormed`); the checks that can fail are those on words, `WellFormed.word`. -/
def Instr.wellFormed : Instr → Bool
  | .selport p => decide (p.toNat < 8)
  | .rdreg p r => decide (p.toNat < 8) && decide (r.toNat < 256)
  | .acq => true
  | .filt s => decide (s.toNat < 4)
  | .run => true

end Sys2Proof
end

