-- ==== Sys2Proof/Decode.lean ====
section
/-! DEFINITION. The decoder of R93, total on command words, its refusals by name, the encoder of R82, and the opcode table's masks. -/

namespace Sys2Proof

/-- Why a word matches no row (R84 lists these cases; the names are the model's, log 16; the block records only that it refused). -/
inductive Reject where
  /-- OP is 0x0 or 0x6 to 0xF. -/
  | reservedOp
  /-- Bit 11 is set. -/
  | bit11Set
  /-- SELPORT, ACQ, FILT or RUN with a non-zero REG field. -/
  | regNotZero
  /-- FILT with bit 10 set, or ACQ or RUN with a non-zero A field. -/
  | aOutOfRange
  deriving DecidableEq, Repr

/-- What the decoder makes of a word: a command, or REFUSED with the first reason that holds. -/
inductive Decoded where
  | command (i : Instr)
  | refused (r : Reject)
  deriving DecidableEq, Repr

/-- The reason a word outside every row is refused. -/
def rejectReason (w : CommandWord) : Reject :=
  if WellFormed.opDefined w = false then .reservedOp
  else if WellFormed.zClear w = false then .bit11Set
  else if WellFormed.regInRange w = false then .regNotZero
  else .aOutOfRange

/-- The decoding algorithm of R93, row by row in its order. -/
def decode (w : CommandWord) : Decoded :=
  if w &&& 0xF8FF#16 = 0x1000#16 then .command (.selport (w.extractLsb' 8 3))
  else if w &&& 0xF800#16 = 0x2000#16 then .command (.rdreg (w.extractLsb' 8 3) (w.extractLsb' 0 8))
  else if w = 0x3000#16 then .command .acq
  else if w &&& 0xFCFF#16 = 0x4000#16 then .command (.filt (w.extractLsb' 8 2))
  else if w = 0x5000#16 then .command .run
  else .refused (rejectReason w)

/-- The port or sensor in field A, bits 10 and down from bit 8 (R81, R83). -/
def fieldA {n : Nat} (v : BitVec n) : CommandWord := v.setWidth 16 <<< 8

/-- The word of a command, from the encoding column of R82: the row's OP, then the fields A and REG. -/
def encode : Instr → CommandWord
  | .selport p => 0x1000#16 ||| fieldA p
  | .rdreg p r => 0x2000#16 ||| fieldA p ||| r.setWidth 16
  | .acq => 0x3000#16
  | .filt s => 0x4000#16 ||| fieldA s
  | .run => 0x5000#16

/-- One row of the table of R82. -/
structure OpcodeRow where
  match_ : CommandWord
  mask   : CommandWord
  deriving DecidableEq, Repr

/-- The five rows of R82 (spec/opcode_table.json), in its order. -/
def opcodeTable : List OpcodeRow :=
  [⟨0x1000#16, 0xF8FF#16⟩, ⟨0x2000#16, 0xF800#16⟩, ⟨0x3000#16, 0xFFFF#16⟩, ⟨0x4000#16, 0xFCFF#16⟩,
   ⟨0x5000#16, 0xFFFF#16⟩]

/-- A word selects a row when `w AND mask = match` (R82). -/
def OpcodeRow.selects (row : OpcodeRow) (w : CommandWord) : Bool := w &&& row.mask == row.match_

/-- The row of a command. -/
def Instr.row : Instr → OpcodeRow
  | .selport _ => ⟨0x1000#16, 0xF8FF#16⟩
  | .rdreg _ _ => ⟨0x2000#16, 0xF800#16⟩
  | .acq => ⟨0x3000#16, 0xFFFF#16⟩
  | .filt _ => ⟨0x4000#16, 0xFCFF#16⟩
  | .run => ⟨0x5000#16, 0xFFFF#16⟩

/-- The command in an instruction of `nbits` bits whose bits are `w`: one 16-bit word (R81, R86), the bits above `nbits`
zero. None where the decoder refuses it, or where a bit lies above the one word a command has. -/
def decodeTableWord (nbits w : Nat) : Option Instr :=
  if w % 2 ^ nbits < 2 ^ 16 then
    match decode (BitVec.ofNat 16 (w % 2 ^ nbits)) with
    | .command i => some i
    | .refused _ => none
  else none

end Sys2Proof
end

