-- ==== Sys2Proof/Config.lean ====
section
/-! DEFINITION. The constants the spec fixes (00_scope R6, R7), the parameters it leaves open (R8) and the free values of the environment (10_state R33). -/

namespace Sys2Proof

/-- What the environment answers to one bus primitive (R13). `ok` is the acknowledged outcome: a write reads it as `ack`
and ignores the byte, a read takes the byte as the data received. -/
inductive Answer where
  | ok (b : Byte)
  | nack
  | stall
  deriving DecidableEq, Repr, Inhabited

/-- The parameters R8 leaves open. ACCPACKSIZE is held as the number of padding bytes above the three bytes of a filtered
vector, so that the constraint 3 ≤ ACCPACKSIZE ≤ 60 holds by type; ACC_ADDR as its distance above MUX_ADDR around the 128
addresses, less one, so that MUX_ADDR ≠ ACC_ADDR holds by type (log 3; `Params.distinct` and `Params.ofAddresses` in Laws). -/
structure Params where
  pad     : Fin 58
  muxAddr : BusAddr
  accStep : Fin 127
  deriving DecidableEq, Repr

/-- ACCPACKSIZE: bytes reserved per sensor in OUT (R8). -/
def Params.accPackSize (c : Params) : Nat := 3 + c.pad

/-- SOCKPACKSIZE = ACCPACKSIZE × NUMSENSORS (R8). -/
def Params.sockPackSize (c : Params) : Nat := c.accPackSize * 4

/-- ACC_ADDR, the address every accelerometer answers at (R8): `accStep + 1` above MUX_ADDR, modulo 128. -/
def Params.accAddr (c : Params) : BusAddr := c.muxAddr + BitVec.ofNat 7 (c.accStep + 1)

namespace Config

/-- NUMSENSORS (R7). -/
def numSensors : Nat := 4

/-- WINDOW: slots per sensor, samples averaged per output (R6). -/
def window : Nat := 5

/-- REG_X, REG_Y, REG_Z: the accelerometer registers of the three high bytes (R6). -/
def regX : Byte := 0x0E#8
def regY : Byte := 0x10#8
def regZ : Byte := 0x12#8

/-- SENTINEL_RD: the byte substituted for a failed register read (R6). -/
def sentinel : Byte := 0#8

/-- TOF_PORT: the ranging sensor's port, used by the host only (R6). -/
def tofPort : Port := 7#3

/-- The sum whose average is the threshold: ZEROTHRES × WINDOW = 10.0 × 5 (R6, R161). -/
def deadSum : Int := 50

/-- FREE VALUE (log 2): the answer of the `n`-th bus primitive once the script in `Env.script` has ended. No body: a
claim that depends on it holds for every environment (R13, R33). -/
opaque freeAnswer : Nat → Answer

/-- OPEN parameters (log 3): the address of the multiplexer, and where the accelerometers' address lies from it; R8 gives
no default. -/
opaque muxAddr : BusAddr
opaque accStep : Fin 127

/-- The parameters a machine is reset with: the spec's default ACCPACKSIZE = 3 and the two open addresses (R8, log 3). -/
def params : Params := { pad := 0, muxAddr := muxAddr, accStep := accStep }

end Config

end Sys2Proof
end

