-- ==== Sys2Proof/Machine/State.lean ====
section
/-! DEFINITION. What State holds: the block's state of 10_state R20, the event history of 00_scope R15, and, as plain data, the parameters, the environment and the host's side of the ports, which the step reads. -/

namespace Sys2Proof.Machine

/-- One sample: three signed bytes (R27). -/
structure Vector3i8 where
  x : I8
  y : I8
  z : I8
  deriving DecidableEq, Repr

/-- Something held for each of the 4 sensors and 5 slots. -/
abbrev Grid (α : Type) := Vector (Vector α 5) 4

/-- The bytes of OUT that differ from their reset value 0, by offset (R28, R38): canonical when `Memory.wf`. -/
abbrev Memory := List Host.Cell

/-- The result of a `BusWrite` (R13). -/
inductive WriteResult where
  | ack
  | nack
  | stall
  deriving DecidableEq, Repr

/-- The result of a `BusRead` (R13). -/
inductive ReadResult where
  | ok (b : Byte)
  | nack
  | stall
  deriving DecidableEq, Repr

/-- One bus primitive of the event history: its arguments and its result (R13, R15). -/
inductive Event where
  | write (addr : BusAddr) (byte : Byte) (stop : Bool) (result : WriteResult)
  | read (addr : BusAddr) (result : ReadResult)
  deriving DecidableEq, Repr

/-- An accelerometer of the reference environment (R65): its register pointer, and its registers, each with the values
that successive reads return, the last one repeating. A register not listed holds 0. -/
structure Device where
  pointer : Byte
  regs    : List (Byte × List Byte)
  deriving DecidableEq, Repr

/-- Which primitives a scripted deviation counts: all, the `BusWrite`s, or the `BusRead`s (R65). -/
inductive Counted where
  | primitive
  | write
  | read
  deriving DecidableEq, Repr

/-- A deviation scripted by number, counted from 1: "the third BusRead answers nack" (R65). It may give any answer; what
it does besides answering is log 9. -/
structure Deviation where
  counted : Counted
  number  : Nat
  answer  : Answer
  deriving DecidableEq, Repr

/-- The reference environment of R65: the multiplexer's routing (R56), the accelerometer on each port, the scripted
deviations, and how many primitives it has answered. -/
structure RefEnv where
  muxsel     : Option Byte
  devices    : Vector (Option Device) 8
  deviations : List Deviation
  writes     : Nat
  reads      : Nat
  deriving DecidableEq, Repr

/-- The environment that answers bus primitives (R13, R33). -/
inductive Env where
  /-- These answers in order, then free values for ever (log 2): every oracle is one of these for as long as the script
  runs, and `script []` is the unconstrained one. -/
  | script (answers : List Answer)
  /-- The deterministic environment of the test vectors (R65). -/
  | reference (r : RefEnv)
  deriving DecidableEq, Repr

/-- What the host can do to the block (R241). -/
inductive HostAction where
  /-- Issue a command word. -/
  | command (w : CommandWord)
  /-- Read the register at an address. -/
  | readReg (a : Byte)
  /-- Assert reset between commands, or in a hang. -/
  | reset
  /-- Assert reset while a command executes: the command is abandoned without a response (R220, R222). -/
  | resetDuringCommand
  /-- Let another master use the bus, the routing left as SELPORT set it (R63). -/
  | busUse
  /-- Let another master change the multiplexer's routing itself: the hazard of R224. -/
  | rawRoute (m : Option Byte)
  deriving DecidableEq, Repr

/-- The machine. The first ten fields are the block's complete state (R20); `hist` is the event history (R15); the rest is
the model's own and lies outside the block (R32, R33, R94, R240). -/
@[ext]
structure State where
  /-- CURPORT (R24). -/
  curport    : Option Port
  /-- WSLOT (R25). -/
  wslot      : Slot
  /-- WFULL (R26). -/
  wfull      : Bool
  /-- WIN (R27). -/
  win        : Grid Vector3i8
  /-- OUT (R28). -/
  out        : Memory
  /-- RDATA (R29). -/
  rdata      : Byte
  /-- BERR (R30). -/
  berr       : Bool
  /-- LBERR (R30). -/
  lberr      : Bool
  /-- LREF (R30). -/
  lref       : Bool
  /-- STUCK (R31). -/
  stuck      : Bool
  /-- H (R15). -/
  hist       : List Event
  /-- The parameters (R8, R32): no step changes them. -/
  cfg        : Params
  /-- The environment (R33). -/
  env        : Env
  /-- How many primitives were asked: the index of the next free answer (log 2). -/
  draws      : Nat
  /-- Ghost (log 5): the slots written since reset, for the invariants of R34. Nothing the block does reads it. -/
  winWritten : Grid Bool
  /-- The host's pending actions, first to happen first (R94, R241). -/
  host       : List HostAction
  /-- The responses delivered, in order (R85, R240). -/
  responses  : List ResponseWord
  /-- The register reads answered, address and value, in order (R37, R240). -/
  regReads   : List (Byte × Byte)
  deriving DecidableEq, Repr

/-- Why the machine stops. -/
inductive Fault where
  /-- Raised by `step` and by every meaning when STUCK = 1 and no reset is pending: a stuck block has no further step
  (R199). Safe: the spec says so. -/
  | stuck
  deriving DecidableEq, Repr

/-- Why the model gives no answer. -/
inductive Refusal where
  /-- An arm of `exec` whose instruction has no meaning yet; raised by nothing, since every arm has one. Safe. -/
  | notModelled (mnemonic : String)
  deriving DecidableEq, Repr

/-- The sample a slot of WIN holds after reset. R38 leaves it unspecified; 0 is the model's choice (log 4, unsafe). -/
def Vector3i8.zero : Vector3i8 := ⟨0#8, 0#8, 0#8⟩

/-- The machine right after reset (R38, R220): CURPORT none, WSLOT 0, WFULL 0, OUT, RDATA and the flags 0, STUCK 0, H
empty; WIN by log 4; the environment unconstrained and no host action pending (log 1, log 2). -/
def State.reset : State where
  curport    := none
  wslot      := 0
  wfull      := false
  win        := Vector.replicate 4 (Vector.replicate 5 Vector3i8.zero)
  out        := []
  rdata      := 0#8
  berr       := false
  lberr      := false
  lref       := false
  stuck      := false
  hist       := []
  cfg        := Config.params
  env        := .script []
  draws      := 0
  winWritten := Vector.replicate 4 (Vector.replicate 5 false)
  host       := []
  responses  := []
  regReads   := []

end Sys2Proof.Machine
end

