-- ==== Sys2Proof/Machine/Operands.lean ====
section
/-! DEFINITION. The pure functions the commands apply to their operands: control byte, sensor map, axis decoding, OUT offset, and the lists the loops run over. -/

namespace Sys2Proof.Machine

/-- `mask(p) = (1 << p)[7:0]`, the multiplexer's control byte (R91). -/
def mask (p : Port) : Byte := 1#8 <<< p.toNat

/-- PORTMAP, the sensor-to-port map (R141). -/
def portMap (s : Sensor) : Port :=
  if s = 0#2 then 6#3 else if s = 1#2 then 0#3 else if s = 2#2 then 4#3 else 5#3

/-- `asI8(b)`: a `u8` reinterpreted as a signed integer (R11). -/
def asI8 (b : Byte) : Int := if b.toNat < 128 then b.toNat else (b.toNat : Int) - 256

/-- `asU8(v)`: the byte of a signed integer −128 to 127 (R11). -/
def asU8 (v : Int) : Byte := if 0 ≤ v then BitVec.ofInt 8 v else BitVec.ofInt 8 (v + 256)

/-- `decodeAxis(b)`: the high byte as the signed acceleration (R140). The bits are unchanged; only their reading is. -/
def decodeAxis (b : Byte) : I8 := b

/-- The sensors in the order every loop visits them (R142, R169). -/
def allSensors : List Sensor := [0#2, 1#2, 2#2, 3#2]

/-- The eight ports. -/
def allPorts : List Port := [0#3, 1#3, 2#3, 3#3, 4#3, 5#3, 6#3, 7#3]

/-- The offset in OUT of byte `j` of sensor `s`'s group (R28, R92). -/
def outOffset (c : Params) (s : Sensor) (j : Nat) : Nat := s.toNat * c.accPackSize + j

end Sys2Proof.Machine
end

