-- ==== Sys2Proof/Machine/Env.lean ====
section
/-! DEFINITION. How the environment answers a bus primitive: the script with its free continuation (00_scope R13, 10_state R33) and the reference environment (20_memory R56, R65). -/

namespace Sys2Proof.Machine

/-- A write reads `ok` as `ack`. -/
def writeResult : Answer → WriteResult
  | .ok _ => .ack
  | .nack => .nack
  | .stall => .stall

/-- A read takes the byte of `ok`. -/
def readResult : Answer → ReadResult
  | .ok b => .ok b
  | .nack => .nack
  | .stall => .stall

/-- The values left to read in register `r`. -/
def Device.values (d : Device) (r : Byte) : List Byte :=
  match d.regs.find? (fun e => e.1 == r) with
  | some e => e.2
  | none => []

/-- One value consumed; the last one repeats. -/
def consume : List Byte → List Byte
  | _ :: b :: rest => b :: rest
  | l => l

/-- The byte at the register pointer (0 where the register is not listed), and the device after the read (R65). -/
def Device.read (d : Device) : Byte × Device :=
  ((d.values d.pointer).headD 0#8,
   { d with regs := d.regs.map fun e => if e.1 == d.pointer then (e.1, consume e.2) else e })

/-- The deviation scripted for the next primitive, a read or a write. -/
def RefEnv.deviation (r : RefEnv) (isRead : Bool) : Option Answer :=
  (r.deviations.find? fun d =>
    match d.counted with
    | .primitive => d.number == r.writes + r.reads + 1
    | .write => !isRead && d.number == r.writes + 1
    | .read => isRead && d.number == r.reads + 1).map (·.answer)

/-- The one port the routing connects, when the routing is a known one-hot mask (R56, R65). -/
def RefEnv.connectedPort (r : RefEnv) : Option Port :=
  allPorts.find? fun p => r.muxsel == some (mask p)

/-- The accelerometer that the routing connects to the bus, with its port. -/
def RefEnv.connected (r : RefEnv) : Option (Port × Device) :=
  match r.connectedPort with
  | some p => (r.devices[p.toNat]'p.isLt).map fun d => (p, d)
  | none => none

/-- The reference environment with the accelerometer of one port replaced. -/
def RefEnv.setDevice (r : RefEnv) (p : Port) (d : Device) : RefEnv :=
  { r with devices := r.devices.set p.toNat (some d) p.isLt }

/-- The environment after a write it acknowledged: a control write sets the routing, a register address the pointer of the
connected accelerometer (R56, R65). -/
def RefEnv.acknowledged (c : Params) (r : RefEnv) (a : BusAddr) (b : Byte) (stop : Bool) : RefEnv :=
  if a = c.muxAddr ∧ stop = true then { r with muxsel := some b }
  else if a = c.accAddr ∧ stop = false then
    match r.connected with
    | some (p, d) => r.setDevice p { d with pointer := b }
    | none => r
  else r

/-- Whether a write is acknowledged where no deviation is scripted (R65). -/
def RefEnv.acknowledges (c : Params) (r : RefEnv) (a : BusAddr) (stop : Bool) : Bool :=
  if a = c.muxAddr ∧ stop = true then true else decide (a = c.accAddr ∧ stop = false) && r.connected.isSome

/-- The reference environment's answer to `BusWrite(a, b, stop)` (R65): the scripted one, or its own; a scripted nack of a
control write also makes the routing unknown. -/
def RefEnv.answerWrite (c : Params) (r : RefEnv) (a : BusAddr) (b : Byte) (stop : Bool) : WriteResult × RefEnv :=
  let counted := { r with writes := r.writes + 1 }
  let own := if r.acknowledges c a stop then WriteResult.ack else .nack
  match ((r.deviation false).map writeResult).getD own with
  | .ack => (.ack, counted.acknowledged c a b stop)
  | .nack => (.nack, if a = c.muxAddr ∧ stop = true then { counted with muxsel := none } else counted)
  | .stall => (.stall, counted)

/-- The reference environment's answer to `BusRead(a)` (R65): the scripted one, or its own. Every `BusRead` of a register
of the connected accelerometer consumes one of its listed values, also where the answer is scripted. -/
def RefEnv.answerRead (c : Params) (r : RefEnv) (a : BusAddr) : ReadResult × RefEnv :=
  let counted := { r with reads := r.reads + 1 }
  match if a = c.accAddr then r.connected else none with
  | some (p, d) => (((r.deviation true).map readResult).getD (.ok d.read.1), counted.setDevice p d.read.2)
  | none => (((r.deviation true).map readResult).getD .nack, counted)

/-- The next answer of a script: its head, or the free value of index `n` once it has ended (log 2). -/
def nextAnswer (n : Nat) : List Answer → Answer
  | a :: _ => a
  | [] => Config.freeAnswer n

/-- The environment's answer to `BusWrite(a, b, stop)`, the `n`-th primitive asked, and the environment after it. -/
def Env.answerWrite (c : Params) (n : Nat) (a : BusAddr) (b : Byte) (stop : Bool) : Env → WriteResult × Env
  | .script l => (writeResult (nextAnswer n l), .script l.tail)
  | .reference r => ((r.answerWrite c a b stop).1, .reference (r.answerWrite c a b stop).2)

/-- The environment's answer to `BusRead(a)`, the `n`-th primitive asked, and the environment after it. -/
def Env.answerRead (c : Params) (n : Nat) (a : BusAddr) : Env → ReadResult × Env
  | .script l => (readResult (nextAnswer n l), .script l.tail)
  | .reference r => ((r.answerRead c a).1, .reference (r.answerRead c a).2)

/-- The environment after something other than `Select` routed the multiplexer (R224). A script stands for every
behaviour, so it is unchanged. -/
def Env.reroute (m : Option Byte) : Env → Env
  | .script l => .script l
  | .reference r => .reference { r with muxsel := m }

end Sys2Proof.Machine
end

