-- ==== Sys2Proof/Machine/Flags.lean ====
section
/-! DEFINITION. Every change of the flags BERR, LBERR, LREF and STUCK, and the words that show flags to the host (10_state R23, R30, R36; 30_encoding R85). -/

namespace Sys2Proof.Machine

/-- The flags at the start of every accepted command: `LREF <- 0 ; LBERR <- 0` (R30, R118). -/
def State.acceptFlags (s : State) : State := { s with lref := false, lberr := false }

/-- The flags of a refused command: `LREF <- 1 ; LBERR <- 0` (R14, R30). -/
def State.refuseFlags (s : State) : State := { s with lref := true, lberr := false }

/-- `raise BusError(phase)`: `BERR <- 1 ; LBERR <- 1`, and nothing else (R14, R190, R195). The phase is not recorded. -/
def State.raiseBusError (s : State) : State := { s with berr := true, lberr := true }

/-- `hang`: the block enters the stuck condition (R14, R199). -/
def State.hang (s : State) : State := { s with stuck := true }

/-- The STATUS byte: [0] WFULL, [1] BERR, [2] LBERR, [3] LREF, [7:4] 0 (R36). -/
def statusByte (s : State) : Byte :=
  0#4 ++ BitVec.ofBool s.lref ++ BitVec.ofBool s.lberr ++ BitVec.ofBool s.berr ++ BitVec.ofBool s.wfull

/-- The 10-bit response word: refused ‖ berr ‖ data (R85). -/
def responseWord (refused berr : Bool) (data : Byte) : ResponseWord :=
  BitVec.ofBool refused ++ BitVec.ofBool berr ++ data

end Sys2Proof.Machine
end

