-- ==== Sys2Proof/Machine/Ops.lean ====
section
/-! DEFINITION. The named operations: OUT as a memory, WIN as a grid, the bus primitives of 00_scope R13, the procedures Select, ReadReg, AcqRound, FiltSensor, and the Execute wrapper of 40_bus_ops R118 with its refusal and its hang. -/

namespace Sys2Proof.Machine

/-! ### OUT -/

/-- The byte at an offset; 0, the reset value, where nothing is listed (R28, R38). -/
def Memory.read : Memory → Nat → Byte
  | [], _ => 0#8
  | (x, v) :: m, a => if x = a then v else Memory.read m a

/-- Put a cell in its place by address. -/
def Memory.insert (c : Host.Cell) : Memory → Memory
  | [] => [c]
  | d :: m => if c.1 < d.1 then c :: d :: m else d :: Memory.insert c m

/-- Write one byte. A byte equal to the reset value is not listed, so equal contents are equal lists. -/
def Memory.write (m : Memory) (a : Nat) (b : Byte) : Memory :=
  let rest := m.filter fun c => c.1 != a
  if b = 0#8 then rest else Memory.insert (a, b) rest

/-- The canonical form: offsets strictly rising, no cell holding the reset value 0. -/
abbrev Memory.wf (m : Memory) : Prop := m.Pairwise (fun c d => c.1 < d.1) ∧ ∀ c ∈ m, c.2 ≠ 0#8

/-! ### WIN -/

/-- The entry of sensor `s`, slot `k`. -/
def Grid.get {α : Type} (g : Grid α) (s : Sensor) (k : Slot) : α := (g[s.toNat]'s.isLt)[k.val]

/-- The grid with the entry of sensor `s`, slot `k` replaced. -/
def Grid.set {α : Type} (g : Grid α) (s : Sensor) (k : Slot) (v : α) : Grid α :=
  Vector.set g s.toNat ((g[s.toNat]'s.isLt).set k.val v) s.isLt

/-- `WIN[s][k] <- v`, the slot marked as written (R27, log 5). -/
def State.setSample (st : State) (s : Sensor) (k : Slot) (v : Vector3i8) : State :=
  { st with win := Grid.set st.win s k v, winWritten := Grid.set st.winWritten s k true }

/-! ### Single-register updates -/

/-- `CURPORT <- c` (R24). -/
def State.setCurport (s : State) (c : Option Port) : State := { s with curport := c }

/-- `WSLOT <- k ; WFULL <- f` (R25, R26). -/
def State.setCursor (s : State) (k : Slot) (f : Bool) : State := { s with wslot := k, wfull := f }

/-- `OUT[a] <- b` (R28). -/
def State.setOut (s : State) (a : Nat) (b : Byte) : State := { s with out := s.out.write a b }

/-- `RDATA <- b` (R29). -/
def State.setRdata (s : State) (b : Byte) : State := { s with rdata := b }

/-- One primitive done: its event at the end of H, the environment after it, one more answer drawn (R15, R58). -/
def State.logEvent (s : State) (e : Event) (env : Env) : State :=
  { s with hist := s.hist ++ [e], env := env, draws := s.draws + 1 }

/-- One response word delivered (R85, R118). -/
def State.respond (s : State) (w : ResponseWord) : State := { s with responses := s.responses ++ [w] }

/-! ### The bus primitives -/

/-- The result of `BusWrite(a, b, stop)` asked in state `s`. -/
def State.writeAnswer (s : State) (a : BusAddr) (b : Byte) (stop : Bool) : WriteResult :=
  (s.env.answerWrite s.cfg s.draws a b stop).1

/-- The state after `BusWrite(a, b, stop)`: the event is in H (R13, R15). -/
def State.afterWrite (s : State) (a : BusAddr) (b : Byte) (stop : Bool) : State :=
  s.logEvent (.write a b stop (s.writeAnswer a b stop)) (s.env.answerWrite s.cfg s.draws a b stop).2

/-- The result of `BusRead(a)` asked in state `s`. -/
def State.readAnswer (s : State) (a : BusAddr) : ReadResult := (s.env.answerRead s.cfg s.draws a).1

/-- The state after `BusRead(a)`: the event is in H (R13, R15). -/
def State.afterRead (s : State) (a : BusAddr) : State :=
  s.logEvent (.read a (s.readAnswer a)) (s.env.answerRead s.cfg s.draws a).2

/-! ### Procedures: they finish with a value, or hang -/

/-- How a procedure ends: with a value, or in a hang, after which no later statement executes (R14). -/
inductive Flow (α : Type) where
  | done (a : α) (s : State)
  | hung (s : State)
  deriving DecidableEq, Repr

/-- One procedure after another. -/
def Flow.bind {α β : Type} (x : Flow α) (f : α → State → Flow β) : Flow β :=
  match x with
  | .done a s => f a s
  | .hung s => .hung s

/-- The state in which a procedure ended. -/
def Flow.state {α : Type} : Flow α → State
  | .done _ s => s
  | .hung s => s

/-- Procedure `Select(p)`: it always transmits; CURPORT becomes `some(p)` on ack and `none` on nack (R110). -/
def select (p : Port) (s : State) : Flow Bool :=
  let t := s.afterWrite s.cfg.muxAddr (mask p) true
  match s.writeAnswer s.cfg.muxAddr (mask p) true with
  | .ack => .done true (t.setCurport (some p))
  | .nack => .done false (t.setCurport none).raiseBusError
  | .stall => .hung t.hang

/-- Phase 2 of `ReadReg`: the one-byte read (R112). -/
def readPhase (s : State) : Flow Byte :=
  let t := s.afterRead s.cfg.accAddr
  match s.readAnswer s.cfg.accAddr with
  | .ok b => .done b t
  | .nack => .done Config.sentinel t.raiseBusError
  | .stall => .hung t.hang

/-- Phases 1 and 2 of `ReadReg`: the register address without STOP, then the read; a failed phase 1 skips phase 2 (R112). -/
def registerPhases (r : Byte) (s : State) : Flow Byte :=
  let t := s.afterWrite s.cfg.accAddr r false
  match s.writeAnswer s.cfg.accAddr r false with
  | .ack => readPhase t
  | .nack => .done Config.sentinel t.raiseBusError
  | .stall => .hung t.hang

/-- The selection of `ReadReg`: skipped exactly when CURPORT = some(p) (R112, R114). -/
def ensurePort (p : Port) (s : State) : Flow Bool := if s.curport = some p then .done true s else select p s

/-- Procedure `ReadReg(p, r)`: a failed selection ends it with 0 and no sensor traffic (R112). -/
def readReg (p : Port) (r : Byte) (s : State) : Flow Byte :=
  (ensurePort p s).bind fun selected t => if selected then registerPhases r t else .done Config.sentinel t

/-- One sensor's part of a round: X, Y, Z read in this order, decoded, and stored in slot `k` (R142). -/
def acqSensor (k : Slot) (s : Sensor) (st : State) : Flow Unit :=
  (readReg (portMap s) Config.regX st).bind fun bx s1 =>
  (readReg (portMap s) Config.regY s1).bind fun byy s2 =>
  (readReg (portMap s) Config.regZ s2).bind fun bz s3 =>
  .done () (s3.setSample s k ⟨decodeAxis bx, decodeAxis byy, decodeAxis bz⟩)

/-- The sensors of a round, in order (R142). -/
def acqSensors (k : Slot) : List Sensor → State → Flow Unit
  | [], st => .done () st
  | s :: rest, st => (acqSensor k s st).bind fun _ t => acqSensors k rest t

/-- The first statement of a round: WFULL is cleared when slot 0 is about to be written (R142). -/
def beginRound (st : State) : State := if st.wslot = 0 then st.setCursor st.wslot false else st

/-- The last statement of a round on slot `k`: the cursor advances; after slot 4 it returns to 0 and WFULL is set (R142). -/
def endRound (k : Slot) (st : State) : State :=
  if k = 4 then st.setCursor 0 true else st.setCursor (k + 1) st.wfull

/-- Procedure `AcqRound()` (R142). -/
def acqRound (st : State) : Flow Unit :=
  (acqSensors st.wslot allSensors (beginRound st)).bind fun _ t => .done () (endRound st.wslot t)

/-- `n` rounds, one after another (R169). -/
def acqRounds : Nat → State → Flow Unit
  | 0, st => .done () st
  | n + 1, st => (acqRound st).bind fun _ t => acqRounds n t

/-- `sat8` (R161, R165). -/
def sat8 (q : Int) : Int := max (-128) (min 127 q)

/-- The exact sum of five signed bytes (R162). -/
def axisSum (v0 v1 v2 v3 v4 : I8) : Int := v0.toInt + v1.toInt + v2.toInt + v3.toInt + v4.toInt

/-- The filter's result as an integer, from the sum: dead zone, nearest integer, saturation. `/` on `Int` by a positive
divisor is the floor division the spec calls `div` (R11, R161). -/
def filterSum (sum : Int) : Int :=
  if -Config.deadSum < sum ∧ sum < Config.deadSum then 0 else sat8 ((sum + 2) / 5)

/-- `FilterAxis`, the normative integer definition (R161). -/
def filterAxis (v0 v1 v2 v3 v4 : I8) : I8 := BitVec.ofInt 8 (filterSum (axisSum v0 v1 v2 v3 v4))

/-- One axis of one sensor, filtered over the five slots (R167, R170). -/
def filterLane (w : Grid Vector3i8) (s : Sensor) (axis : Vector3i8 → I8) : I8 :=
  filterAxis (axis (Grid.get w s 0)) (axis (Grid.get w s 1)) (axis (Grid.get w s 2)) (axis (Grid.get w s 3))
    (axis (Grid.get w s 4))

/-- Procedure `FiltSensor(s)`: three bytes of OUT (R167). -/
def filtSensor (s : Sensor) (st : State) : State :=
  ((st.setOut (outOffset st.cfg s 0) (filterLane st.win s Vector3i8.x)).setOut (outOffset st.cfg s 1)
    (filterLane st.win s Vector3i8.y)).setOut (outOffset st.cfg s 2) (filterLane st.win s Vector3i8.z)

/-- The filter of several sensors, in order (R169). -/
def filtSensors : List Sensor → State → State
  | [], st => st
  | s :: rest, st => filtSensors rest (filtSensor s st)

/-! ### Execute -/

/-- The end of an accepted command: its response, or nothing where it hung (R118). -/
def finishCommand : Flow Byte → State
  | .done data s => s.respond (responseWord false s.lberr data)
  | .hung s => s

/-- The accepted path of `Execute`: flags cleared, the body, the response (R118). A stuck block accepts no command (R31). -/
def execute (body : State → Flow Byte) (s : State) : Host.Outcome State Fault Refusal :=
  if s.stuck then .fault .stuck else .next (finishCommand (body s.acceptFlags))

/-- A refusal: the flags, the response 0x200, and nothing else (R14, R118). -/
def refuse (s : State) : State := s.refuseFlags.respond (responseWord true false 0#8)

/-- The refused path of `Execute` (R118). A stuck block accepts no command (R31). -/
def executeRefused (s : State) : Host.Outcome State Fault Refusal := if s.stuck then .fault .stuck else .next (refuse s)

end Sys2Proof.Machine
end

