-- ==== Sys2Proof/Machine/Acquire.lean ====
section
/-! DEFINITION. The command ACQ (41_acquire R143). -/

namespace Sys2Proof.Machine

/-- `body(ACQ)`: one round, return 0 (R143). -/
def acqBody (s : State) : Flow Byte := (acqRound s).bind fun _ t => .done 0#8 t

/-- ACQ (R143). -/
def execAcq (s : State) : Host.Outcome State Fault Refusal := execute acqBody s

end Sys2Proof.Machine
end

