-- ==== Sys2Proof/Machine/BusOps.lean ====
section
/-! DEFINITION. The bus commands SELPORT and RDREG (40_bus_ops R111, R113). -/

namespace Sys2Proof.Machine

/-- `body(SELPORT(p))`: select, return 0 (R111). -/
def selportBody (p : Port) (s : State) : Flow Byte := (select p s).bind fun _ t => .done 0#8 t

/-- SELPORT p (R111). -/
def execSelport (p : Port) (s : State) : Host.Outcome State Fault Refusal := execute (selportBody p) s

/-- `body(RDREG(p, r))`: the byte read, latched in RDATA also on failure, is the response data (R113). -/
def rdregBody (p : Port) (r : Byte) (s : State) : Flow Byte := (readReg p r s).bind fun b t => .done b (t.setRdata b)

/-- RDREG p, r (R113). -/
def execRdreg (p : Port) (r : Byte) (s : State) : Host.Outcome State Fault Refusal := execute (rdregBody p r) s

end Sys2Proof.Machine
end

