-- ==== Sys2Proof/Machine/Filter.lean ====
section
/-! DEFINITION. The commands FILT and RUN (42_filter R168, R169). -/

namespace Sys2Proof.Machine

/-- `body(FILT(s))`: filter one sensor, return 0 (R168). -/
def filtBody (sensor : Sensor) (s : State) : Flow Byte := .done 0#8 (filtSensor sensor s)

/-- FILT s: refused unless WFULL = 1 (R118, R168). -/
def execFilt (sensor : Sensor) (s : State) : Host.Outcome State Fault Refusal :=
  if s.wfull then execute (filtBody sensor) s else executeRefused s

/-- `body(RUN)`: a fresh cycle of five rounds, then the filter of every sensor, return 0 (R169). -/
def runBody (s : State) : Flow Byte :=
  (acqRounds Config.window (s.setCursor 0 false)).bind fun _ t => .done 0#8 (filtSensors allSensors t)

/-- RUN (R169). -/
def execRun (s : State) : Host.Outcome State Fault Refusal := execute runBody s

end Sys2Proof.Machine
end

