-- ==== Sys2Proof/Machine/Dispatch.lean ====
section
/-! DEFINITION. exec: one arm per command. -/

namespace Sys2Proof.Machine

def exec (i : Instr) (s : State) : Host.Outcome State Fault Refusal :=
  match i with
  | .selport p => Sys2Proof.Machine.execSelport p s
  | .rdreg p r => Sys2Proof.Machine.execRdreg p r s
  | .acq => Sys2Proof.Machine.execAcq s
  | .filt sensor => Sys2Proof.Machine.execFilt sensor s
  | .run => Sys2Proof.Machine.execRun s

end Sys2Proof.Machine
end

