-- ==== Sys2Proof/Machine/HostPort.lean ====
section
/-! DEFINITION. The host's side: the register map (10_state R36), reset (70_reset R220 to R222), and what each host action other than a command does (R241). -/

namespace Sys2Proof.Machine

/-- The CURPORT byte: [2:0] port, [3] valid, [7:4] 0 (R36). -/
def curportByte : Option Port → Byte
  | some p => 0#4 ++ 1#1 ++ p
  | none => 0#8

/-- The byte the host reads at a register address (R36). -/
def readRegister (s : State) (a : Byte) : Byte :=
  if a = 0x00#8 then statusByte s
  else if a = 0x01#8 then curportByte s.curport
  else if a = 0x02#8 then BitVec.ofNat 8 s.wslot
  else if a = 0x03#8 then s.rdata
  else if 0x10 ≤ a.toNat ∧ a.toNat < 0x10 + s.cfg.sockPackSize then s.out.read (a.toNat - 0x10)
  else 0#8

/-- Reset: every piece of the block's state at its reset value, H empty; the parameters, the environment (R221) and the
host's own records stay (log 7). -/
def State.resetBlock (s : State) : State :=
  { State.reset with
    cfg := s.cfg, env := s.env, draws := s.draws, host := s.host, responses := s.responses, regReads := s.regReads }

/-- Reset while a primitive is in progress: the block as after any reset, and an unconstrained environment (R222, log 8). -/
def State.resetMidTransaction (s : State) : State := { s.resetBlock with env := .script [] }

/-- What a host action other than a command does to an idle block. -/
def hostAct (a : HostAction) (s : State) : State :=
  match a with
  | .command _ => s
  | .readReg a => { s with regReads := s.regReads ++ [(a, readRegister s a)] }
  | .reset => s.resetBlock
  | .resetDuringCommand => s.resetMidTransaction
  | .busUse => s
  | .rawRoute m => { s with env := s.env.reroute m }

/-- The actions that assert reset. -/
def HostAction.isReset : HostAction → Bool
  | .reset => true
  | .resetDuringCommand => true
  | .command _ => false
  | .readReg _ => false
  | .busUse => false
  | .rawRoute _ => false

/-- A stuck block: the first pending reset happens, overtaking what waits for the block to be idle (R94, R220, log 15);
with none pending there is no further step (R199). -/
def stuckStep (s : State) : Host.Outcome State Fault Refusal :=
  if s.host.any HostAction.isReset then
    .next { s with host := s.host.eraseP HostAction.isReset }.resetMidTransaction
  else .fault .stuck

end Sys2Proof.Machine
end

