-- ==== Sys2Proof/Machine/Step.lean ====
section
/-! DEFINITION. One step: the host's next action. A command is decoded and executed (40_bus_ops R118); an idle block with no action pending stays as it is. -/

namespace Sys2Proof.Machine

/-- Execute the word `w` (R118): decode, refuse, or execute. -/
def runWord (w : CommandWord) (s : State) : Host.Outcome State Fault Refusal :=
  match decode w with
  | .command i => exec i s
  | .refused _ => executeRefused s

/-- One step of the machine. -/
def step (s : State) : Host.Outcome State Fault Refusal :=
  if s.stuck then stuckStep s
  else
    match s.host with
    | [] => .next s
    | .command w :: rest => runWord w { s with host := rest }
    | a :: rest => .next (hostAct a { s with host := rest })

/-- `s` with one instruction offered as the host's next action, so that the next step executes it (log 1). -/
def State.withFetchWord (s : State) (nbits w : Nat) : State :=
  { s with host := .command (BitVec.ofNat 16 (w % 2 ^ nbits)) :: s.host }

end Sys2Proof.Machine
end

