-- ==== Sys2Proof/Machine/Assembler.lean ====
section
/-! DEFINITION. The assembler syntax of 30_encoding R87: mnemonics, operands, comments, and the three pseudo-commands. -/

namespace Sys2Proof.Machine

/-- RDSENS s, r: a register read by logical sensor (R87). -/
def pseudoRdsens (s : Sensor) (r : Byte) : List Instr := [.rdreg (portMap s) r]

/-- SELTOF: select the ranging sensor's port (R87). -/
def pseudoSeltof : List Instr := [.selport Config.tofPort]

/-- FILTALL: the filter half of RUN (R87). -/
def pseudoFiltall : List Instr := allSensors.map Instr.filt

/-- The value of a digit in a base, where the character is one. -/
def digitValue (base : Nat) (c : Char) : Option Nat :=
  let v := if '0' ≤ c ∧ c ≤ '9' then c.toNat - '0'.toNat
    else if 'a' ≤ c ∧ c ≤ 'f' then c.toNat - 'a'.toNat + 10
    else if 'A' ≤ c ∧ c ≤ 'F' then c.toNat - 'A'.toNat + 10
    else base
  if v < base then some v else none

/-- A run of digits, most significant first, continuing from `acc`. -/
def digitsValue (base : Nat) (acc : Nat) : List Char → Option Nat
  | [] => some acc
  | c :: cs =>
    match digitValue base c with
    | some v => digitsValue base (acc * base + v) cs
    | none => none

/-- An operand: decimal, or hexadecimal after `0x` (R87). -/
def operandValue : List Char → Option Nat
  | [] => none
  | '0' :: 'x' :: c :: cs => digitsValue 16 0 (c :: cs)
  | c :: cs => digitsValue 10 0 (c :: cs)

/-- An operand below a bound. -/
def operandBelow (bound : Nat) (cs : List Char) : Option Nat :=
  match operandValue cs with
  | some v => if v < bound then some v else none
  | none => none

/-- What separates tokens: space, tab, comma (log 12). -/
def isSeparator (c : Char) : Bool := c == ' ' || c == '\t' || c == ','

/-- The tokens of a line, `cur` being the characters of the token under way, last first; a comment starts with `;` (R87). -/
def tokensFrom (cur : List Char) : List Char → List (List Char)
  | [] => if cur = [] then [] else [cur.reverse]
  | c :: cs =>
    if c = ';' then (if cur = [] then [] else [cur.reverse])
    else if isSeparator c then (if cur = [] then tokensFrom [] cs else cur.reverse :: tokensFrom [] cs)
    else tokensFrom (c :: cur) cs

/-- The commands of one line: none where it is not a line of R87, no command where it is empty. -/
def assembleLine (line : List Char) : Option (List Instr) :=
  match tokensFrom [] line with
  | [] => some []
  | [m] =>
    if m = "ACQ".toList then some [.acq]
    else if m = "RUN".toList then some [.run]
    else if m = "SELTOF".toList then some pseudoSeltof
    else if m = "FILTALL".toList then some pseudoFiltall
    else none
  | [m, x] =>
    if m = "SELPORT".toList then (operandBelow 8 x).map fun p => [.selport (BitVec.ofNat 3 p)]
    else if m = "FILT".toList then (operandBelow 4 x).map fun s => [.filt (BitVec.ofNat 2 s)]
    else none
  | [m, x, y] =>
    if m = "RDREG".toList then
      match operandBelow 8 x, operandBelow 256 y with
      | some p, some r => some [.rdreg (BitVec.ofNat 3 p) (BitVec.ofNat 8 r)]
      | _, _ => none
    else if m = "RDSENS".toList then
      match operandBelow 4 x, operandBelow 256 y with
      | some s, some r => some (pseudoRdsens (BitVec.ofNat 2 s) (BitVec.ofNat 8 r))
      | _, _ => none
    else none
  | _ => none

/-- The command words of a listing, one line at a time: none where a line does not assemble. -/
def assemble : List (List Char) → Option (List CommandWord)
  | [] => some []
  | line :: rest =>
    match assembleLine line, assemble rest with
    | some cs, some ws => some (cs.map encode ++ ws)
    | _, _ => none

end Sys2Proof.Machine
end

