-- ==== Sys2Proof/Machine/Wire.lean ====
section
/-! DEFINITION. The byte level of the event history: the I2C byte layout of each primitive (30_encoding R88 to R90). The spec marks the parts it took from general knowledge (G1 to G4, log 13). -/

namespace Sys2Proof.Machine

/-- What stands on the bus, in order: a condition the master makes, a byte, or the answer to a byte. -/
inductive Wire where
  | start
  | repeatedStart
  | stop
  | byte (b : Byte)
  | ack
  | nack
  deriving DecidableEq, Repr

/-- The address byte `addr7 ‖ rw`: rw is 0 for a write and 1 for a read (R88). -/
def addressByte (a : BusAddr) (isRead : Bool) : Byte := a ++ BitVec.ofBool isRead

/-- START, or repeated START when the transaction before ended without STOP (R13). -/
def startOf (repeated : Bool) : Wire := if repeated then .repeatedStart else .start

/-- A write transaction both of whose bytes were acknowledged (R89, R90). -/
def wireWriteAck (repeated : Bool) (a : BusAddr) (b : Byte) (stop : Bool) : List Wire :=
  [startOf repeated, .byte (addressByte a false), .ack, .byte b, .ack] ++ if stop then [.stop] else []

/-- A write transaction whose address byte was not acknowledged: no data byte, STOP (R89). -/
def wireWriteNoAddress (repeated : Bool) (a : BusAddr) : List Wire :=
  [startOf repeated, .byte (addressByte a false), .nack, .stop]

/-- A write transaction whose data byte was not acknowledged: STOP (R13, R89, R90). -/
def wireWriteNoData (repeated : Bool) (a : BusAddr) (b : Byte) : List Wire :=
  [startOf repeated, .byte (addressByte a false), .ack, .byte b, .nack, .stop]

/-- A read transaction of one byte, which the master answers with NACK before STOP (R90). -/
def wireReadOk (repeated : Bool) (a : BusAddr) (b : Byte) : List Wire :=
  [startOf repeated, .byte (addressByte a true), .ack, .byte b, .nack, .stop]

/-- A read transaction whose address byte was not acknowledged (R13). -/
def wireReadNoAddress (repeated : Bool) (a : BusAddr) : List Wire :=
  [startOf repeated, .byte (addressByte a true), .nack, .stop]

/-- The byte-level forms of one primitive. A `nack` that was a time-out of the hardware layer (R191) and a `stall` have no
form of their own: the spec gives them none. -/
def Event.wireForms (repeated : Bool) : Event → List (List Wire)
  | .write a b stop .ack => [wireWriteAck repeated a b stop]
  | .write a b _ .nack => [wireWriteNoAddress repeated a, wireWriteNoData repeated a b]
  | .write _ _ _ .stall => []
  | .read a (.ok b) => [wireReadOk repeated a b]
  | .read a .nack => [wireReadNoAddress repeated a]
  | .read _ .stall => []

/-- Whether the primitive leaves the bus claimed, so that the next begins with a repeated START (R13). -/
def Event.holdsBus : Event → Bool
  | .write _ _ stop .ack => !stop
  | .write _ _ _ .nack => false
  | .write _ _ _ .stall => false
  | .read _ _ => false

/-- The byte level of a history each of whose primitives has one form; `repeated` tells how it begins. -/
def wireOf (repeated : Bool) : List Event → Option (List Wire)
  | [] => some []
  | e :: rest =>
    match e.wireForms repeated, wireOf e.holdsBus rest with
    | [w], some tail => some (w ++ tail)
    | _, _ => none

end Sys2Proof.Machine
end

