-- ==== Sys2Proof/Safety.lean ====
section
/-! DEFINITION. What counts as a good state and a good run, and the vocabulary claims use: the invariants of 10_state R34, predicates on events, the trace of a failure-free round, the real-valued filter. -/

namespace Sys2Proof.Machine

/-- The block can accept a command or a register read (R94: no command is executing between steps). -/
abbrev State.idle (s : State) : Prop := s.stuck = false

/-! ### Events -/

/-- A port selection: the only write that ends with STOP (R89, R90). -/
def Event.isSelection : Event → Bool
  | .write _ _ stop _ => stop
  | .read _ _ => false

/-- A register-address write: the write that leaves the bus claimed (R90). -/
def Event.isAddressWrite : Event → Bool
  | .write _ _ stop _ => !stop
  | .read _ _ => false

/-- A one-byte read. -/
def Event.isRead : Event → Bool
  | .write _ _ _ _ => false
  | .read _ _ => true

/-- The primitive was answered `nack`: a bus failure (R190, R191). -/
def Event.failed : Event → Bool
  | .write _ _ _ r => r == .nack
  | .read _ r => r == .nack

/-- The primitive was answered `stall` (R13). -/
def Event.stalled : Event → Bool
  | .write _ _ _ r => r == .stall
  | .read _ r => r == .stall

/-- What the block may put on the bus: a one-hot control byte to the multiplexer, a register address to the
accelerometer, a read of one byte from it (R91, R115). -/
def Event.fromBlock (c : Params) : Event → Prop
  | .write a b true _ => a = c.muxAddr ∧ ∃ p : Port, b = mask p
  | .write a _ false _ => a = c.accAddr
  | .read a _ => a = c.accAddr

/-- What a completed selection tells of the routing: the port an acknowledged control byte names, nothing after one that
was not acknowledged (R24). A primitive that is no completed selection tells nothing new. -/
def Event.routing : Event → Option (Option Port)
  | .write _ m true .ack => some (allPorts.find? fun p => mask p == m)
  | .write _ _ true .nack => some none
  | .write _ _ true .stall => none
  | .write _ _ false _ => none
  | .read _ _ => none

/-- The port the last completed selection of a history selected (R24). -/
def lastSelected (h : List Event) : Option Port := ((h.filterMap Event.routing).getLast?).getD none

/-! ### Answers -/

/-- The answer is not a bus failure. -/
def isOk : Answer → Bool
  | .ok _ => true
  | .nack => false
  | .stall => false

/-- The primitive completes: it is acknowledged or fails, but does not stall. -/
def completes : Answer → Bool
  | .ok _ => true
  | .nack => true
  | .stall => false

/-- The byte the `i`-th answer of a script carries, 0 where it carries none. -/
def byteAt (l : List Answer) (i : Nat) : Byte :=
  match l[i]? with
  | some (.ok b) => b
  | _ => 0#8

/-! ### The failure-free round (R144) -/

/-- The two events of one register read: address, then the byte. -/
def readTrace (c : Params) (r b : Byte) : List Event := [.write c.accAddr r false .ack, .read c.accAddr (.ok b)]

/-- The six events of one sensor after its selection: X, Y, Z; the bytes are those that answers `i + 1`, `i + 3`, `i + 5` carry. -/
def sensorTrace (c : Params) (l : List Answer) (i : Nat) : List Event :=
  readTrace c Config.regX (byteAt l (i + 1)) ++ readTrace c Config.regY (byteAt l (i + 3)) ++
    readTrace c Config.regZ (byteAt l (i + 5))

/-- The selection of a sensor's port. -/
def selectTrace (c : Params) (s : Sensor) : Event := .write c.muxAddr (mask (portMap s)) true .ack

/-- The events of a failure-free round whose 28 answers are `l` (R144). -/
def roundTrace (c : Params) (l : List Answer) : List Event :=
  selectTrace c 0#2 :: sensorTrace c l 1 ++ selectTrace c 1#2 :: sensorTrace c l 8 ++
    selectTrace c 2#2 :: sensorTrace c l 15 ++ selectTrace c 3#2 :: sensorTrace c l 22

/-- The sample that the answers from position `i` on carry. -/
def sampleAt (l : List Answer) (i : Nat) : Vector3i8 :=
  ⟨decodeAxis (byteAt l (i + 1)), decodeAxis (byteAt l (i + 3)), decodeAxis (byteAt l (i + 5))⟩

/-! ### The filter as the source states it (R160) -/

/-- The average after the dead zone, exact: `avg' = 0.0 if |avg| < 10.0, else avg` (R160). -/
def deadZoneAverage (v0 v1 v2 v3 v4 : I8) : ℚ :=
  let avg : ℚ := (axisSum v0 v1 v2 v3 v4 : ℚ) / 5
  if |avg| < 10 then 0 else avg

/-- A value the filter can put out: 0, 10 to 127, −128 to −10 (R166). -/
def filterOutput (b : Byte) : Prop := b.toInt = 0 ∨ 10 ≤ b.toInt ∨ b.toInt ≤ -10

/-! ### Good states and runs -/

/-- The invariants of R34, and the canonical form of OUT. -/
structure State.Inv (s : State) : Prop where
  /-- Item 2. -/
  fullAtZero : s.wfull = true → s.wslot = 0
  /-- Item 3. -/
  fullWritten : s.wfull = true → ∀ (x : Sensor) (k : Slot), Grid.get s.winWritten x k = true
  /-- Item 4. -/
  cursorWritten : ∀ (x : Sensor) (k : Slot), k < s.wslot → Grid.get s.winWritten x k = true
  /-- Item 5, the result bytes. -/
  outResults : ∀ (x : Sensor) (j : Nat), j < 3 → filterOutput (s.out.read (outOffset s.cfg x j))
  /-- Item 5, the padding bytes. -/
  outPadding : ∀ (x : Sensor) (j : Nat), 3 ≤ j → j < s.cfg.accPackSize → s.out.read (outOffset s.cfg x j) = 0#8
  /-- Item 6. -/
  refusedNoError : s.lref = true → s.lberr = false
  /-- Item 6. -/
  errorSticky : s.lberr = true → s.berr = true
  /-- OUT is canonical (log 11). -/
  outCanonical : s.out.wf
  /-- OUT lists no offset outside 0 to SOCKPACKSIZE − 1 (R28, R50). -/
  outBounded : ∀ c ∈ s.out, c.1 < s.cfg.sockPackSize

/-- Several commands, each on the state the one before left, stopping at the first that gives no next state. -/
def execAll : List Instr → State → Host.Outcome State Fault Refusal
  | [], s => .next s
  | i :: rest, s =>
    match exec i s with
    | .next t => execAll rest t
    | .fault r => .fault r
    | .refused r => .refused r

/-- A state whose flags BERR, LBERR and LREF are replaced. -/
def State.withFlags (s : State) (berr lberr lref : Bool) : State := { s with berr := berr, lberr := lberr, lref := lref }

/-- A state whose sample window, slot cursor and window-full flag are replaced. -/
def State.withWindow (s : State) (w : Grid Vector3i8) (g : Grid Bool) (k : Slot) (f : Bool) : State :=
  { s with win := w, winWritten := g, wslot := k, wfull := f }

/-- An outcome with the next state changed. -/
def mapNext (f : State → State) : Host.Outcome State Fault Refusal → Host.Outcome State Fault Refusal
  | .next t => .next (f t)
  | .fault r => .fault r
  | .refused r => .refused r

end Sys2Proof.Machine
end

