-- ==== Sys2Proof/Certificates/Slice0/Obligations.lean ====
section
/-! DEFINITION. The statements about MAFE for the provers, each from numbered rules of the spec. -/

open Sys2Proof Sys2Proof.Machine

/-! ### Encoding -/

/-- R82, R83, R93: the word of every well-formed command decodes to it, with every operand at every value. -/
def Obligations.DecodeEncodeRoundTrip : Prop :=
  ∀ i : Instr, i.wellFormed = true → decode (encode i) = .command i

/-- R82, R93: the word a command was decoded from is the word the encoder gives it. -/
def Obligations.EncodeDecodedWord : Prop :=
  ∀ (w : CommandWord) (i : Instr), decode w = .command i → encode i = w ∧ i.wellFormed = true

/-- R84: which words are refused, what a refused word does, and how many words each row accepts and how many are refused.
The lists of host actions and of responses are the model's (logs 1 and 7). -/
def Obligations.RefusedWords : Prop :=
  (∀ w : CommandWord, (∀ row ∈ opcodeTable, row.selects w = false) ↔
    (w.op = 0#4 ∨ 6 ≤ w.op.toNat ∨ w.getLsbD 11 = true ∨ (w.op = 4#4 ∧ w.getLsbD 10 = true) ∨
      ((w.op = 1#4 ∨ w.op = 3#4 ∨ w.op = 4#4 ∨ w.op = 5#4) ∧ w.reg ≠ 0#8) ∨
      ((w.op = 3#4 ∨ w.op = 5#4) ∧ w.a ≠ 0#3))) ∧
  (∀ (w : CommandWord) (s : State) (rest : List HostAction), (∀ row ∈ opcodeTable, row.selects w = false) →
    s.idle → s.host = .command w :: rest →
    step s = .next { s with host := rest, lref := true, lberr := false,
                            responses := s.responses ++ [responseWord true false 0#8] }) ∧
  (∃ accepted refused : List CommandWord, accepted.Nodup ∧ refused.Nodup ∧ accepted.length = 2062 ∧
    refused.length = 63474 ∧ (∀ w, w ∈ accepted ↔ ∃ row ∈ opcodeTable, row.selects w = true) ∧
    (∀ w, w ∈ refused ↔ ∀ row ∈ opcodeTable, row.selects w = false) ∧
    opcodeTable.map (fun row => accepted.countP row.selects) = [8, 2048, 1, 4, 1])

/-- R82, R93: words written out from the encodings decode to the commands they stand for (95_test_vectors 2.1). -/
def Obligations.SampleWordsDecode : Prop :=
  decode 0x1000#16 = .command (.selport 0#3) ∧ decode 0x1700#16 = .command (.selport 7#3) ∧
  decode 0x260E#16 = .command (.rdreg 6#3 0x0E#8) ∧ decode 0x27FF#16 = .command (.rdreg 7#3 0xFF#8) ∧
  decode 0x3000#16 = .command .acq ∧ decode 0x4300#16 = .command (.filt 3#2) ∧ decode 0x5000#16 = .command .run ∧
  (∃ r, decode 0x4400#16 = .refused r) ∧ (∃ r, decode 0x1601#16 = .refused r) ∧ (∃ r, decode 0x2E0E#16 = .refused r)

/-- R87: the word of each mnemonic, and what the pseudo-commands expand to. -/
def Obligations.MnemonicWords : Prop :=
  (∀ p : Port, (encode (.selport p)).toNat = 0x1000 + 0x100 * p.toNat) ∧
  (∀ (p : Port) (r : Byte), (encode (.rdreg p r)).toNat = 0x2000 + 0x100 * p.toNat + r.toNat) ∧
  encode .acq = 0x3000#16 ∧ (∀ s : Sensor, (encode (.filt s)).toNat = 0x4000 + 0x100 * s.toNat) ∧
  encode .run = 0x5000#16 ∧
  (∀ (s : Sensor) (r : Byte), pseudoRdsens s r = [.rdreg (portMap s) r]) ∧ pseudoSeltof = [.selport 7#3] ∧
  pseudoFiltall = [.filt 0#2, .filt 1#2, .filt 2#2, .filt 3#2]

/-! ### The host's side -/

/-- R118: when the host's next action is a word that decodes to a command, the step is `exec` of that command on the
state without the action. The list of host actions is the model's (log 1). -/
def Obligations.StepRunsDecodedCommand : Prop :=
  ∀ (s : State) (w : CommandWord) (i : Instr) (rest : List HostAction),
    s.idle → s.host = .command w :: rest → decode w = .command i → step s = exec i { s with host := rest }

/-- R36: what every register address reads as, and where the result bytes of each sensor stand. -/
def Obligations.RegisterMapContents : Prop :=
  ∀ s : State,
    ((readRegister s 0x00#8).getLsbD 0 = s.wfull ∧ (readRegister s 0x00#8).getLsbD 1 = s.berr ∧
      (readRegister s 0x00#8).getLsbD 2 = s.lberr ∧ (readRegister s 0x00#8).getLsbD 3 = s.lref ∧
      (readRegister s 0x00#8).extractLsb' 4 4 = 0#4) ∧
    ((∀ p, s.curport = some p → (readRegister s 0x01#8).extractLsb' 0 3 = p ∧
        (readRegister s 0x01#8).getLsbD 3 = true) ∧
      (s.curport = none → (readRegister s 0x01#8).extractLsb' 0 4 = 0#4) ∧
      (readRegister s 0x01#8).extractLsb' 4 4 = 0#4) ∧
    (((readRegister s 0x02#8).extractLsb' 0 3).toNat = s.wslot.val ∧ (readRegister s 0x02#8).extractLsb' 3 5 = 0#5) ∧
    readRegister s 0x03#8 = s.rdata ∧
    (∀ a : Byte, 0x04 ≤ a.toNat → a.toNat ≤ 0x0F → readRegister s a = 0#8) ∧
    (∀ (a : Byte) (i : Nat), i < s.cfg.sockPackSize → a.toNat = 0x10 + i → readRegister s a = s.out.read i) ∧
    (∀ a : Byte, 0x10 + s.cfg.sockPackSize ≤ a.toNat → readRegister s a = 0#8) ∧
    (∀ i : Nat, i < s.cfg.sockPackSize → 0x10 + i < 256) ∧
    (∀ (x : Sensor) (j : Nat), j < 3 →
      readRegister s (BitVec.ofNat 8 (0x10 + x.toNat * s.cfg.accPackSize + j)) = s.out.read (outOffset s.cfg x j))

/-- R37: a register read changes no state of the block and causes no bus activity; it answers the map's byte, and only
when STUCK = 0. The list of host actions and the record of reads are the model's (logs 1 and 7). -/
def Obligations.RegisterReadHasNoSideEffect : Prop :=
  (∀ (s : State) (a : Byte) (rest : List HostAction), s.idle → s.host = .readReg a :: rest →
    step s = .next { s with host := rest, regReads := s.regReads ++ [(a, readRegister s a)] }) ∧
  (∀ s t : State, s.stuck = true → step s = .next t → t.regReads = s.regReads)

/-- R38: the reset values the spec gives. -/
def Obligations.ResetValues : Prop :=
  State.reset.curport = none ∧ State.reset.wslot = 0 ∧ State.reset.wfull = false ∧
  (∀ a, State.reset.out.read a = 0#8) ∧ State.reset.rdata = 0#8 ∧ State.reset.berr = false ∧
  State.reset.lberr = false ∧ State.reset.lref = false ∧ State.reset.stuck = false ∧ State.reset.hist = []

/-- R220, R221, R222: reset between commands, during one, or in a hang puts every piece of the block's state at the value of
R38, gives no response and leaves the block idle. Between commands it leaves the environment alone; in the middle of a
transaction the environment is unconstrained afterwards. The model's choices in it are logs 1, 7, 8 and 15. -/
def Obligations.ResetFromAnyState : Prop :=
  ∀ (s : State) (a : HostAction) (before after : List HostAction),
    a = .reset ∨ a = .resetDuringCommand → s.host = before ++ a :: after →
    (s.stuck = false → before = []) → (∀ b ∈ before, b ≠ .reset ∧ b ≠ .resetDuringCommand) →
    ∃ t, step s = .next t ∧ t.curport = none ∧ t.wslot = 0 ∧ t.wfull = false ∧ (∀ o, t.out.read o = 0#8) ∧
      t.rdata = 0#8 ∧ t.berr = false ∧ t.lberr = false ∧ t.lref = false ∧ t.stuck = false ∧ t.hist = [] ∧
      t.responses = s.responses ∧ t.regReads = s.regReads ∧ t.host = before ++ after ∧ t.cfg = s.cfg ∧
      (s.stuck = false → a = .reset → t.env = s.env) ∧
      (s.stuck = true ∨ a = .resetDuringCommand → t.env = .script [])

/-- R31, R199: a stuck block has no further step and accepts no command, unless a reset is pending.
That the model says it by a fault is log 6. -/
def Obligations.StuckBlockHasNoStep : Prop :=
  ∀ s : State, s.stuck = true →
    ((∀ a ∈ s.host, a ≠ .reset ∧ a ≠ .resetDuringCommand) → step s = .fault .stuck) ∧
    (∀ i : Instr, exec i s = .fault .stuck)

/-- R63, R224, R241: what another master does between commands changes nothing in the block.
The two host actions are the model's (logs 1 and 10). -/
def Obligations.OtherMasterLeavesBlock : Prop :=
  ∀ (s : State) (a : HostAction) (rest : List HostAction), s.idle → s.host = a :: rest →
    (a = .busUse → step s = .next { s with host := rest }) ∧
    (∀ m, a = .rawRoute m → ∃ e, step s = .next { s with host := rest, env := e })

/-- R85: every command word, accepted or refused, gives exactly one response, whose bits are the flags after the command
and the byte RDREG read; a command that hangs gives none.
The lists of host actions and of responses are the model's (logs 1 and 7). -/
def Obligations.ResponseOfEveryCommand : Prop :=
  (∀ (refused berr : Bool) (d : Byte), (responseWord refused berr d).getLsbD 9 = refused ∧
    (responseWord refused berr d).getLsbD 8 = berr ∧ (responseWord refused berr d).extractLsb' 0 8 = d) ∧
  (∀ (s t : State) (w : CommandWord) (rest : List HostAction), s.idle → s.host = .command w :: rest →
    step s = .next t →
    (t.stuck = true → t.responses = s.responses) ∧
    (t.stuck = false → ∃ d, t.responses = s.responses ++ [responseWord t.lref t.lberr d] ∧
      ((∃ p r, decode w = .command (.rdreg p r)) → d = t.rdata ∧ (t.lberr = true → d = 0#8)) ∧
      ((¬ ∃ p r, decode w = .command (.rdreg p r)) → d = 0#8)))

/-! ### SELPORT -/

/-- R91: the control byte of a port has exactly that bit set. -/
def Obligations.ControlByteIsOneHot : Prop :=
  (∀ (p : Port) (j : Nat), (mask p).getLsbD j = decide (j = p.toNat)) ∧
  (∀ p : Port, (mask p).toNat = 2 ^ p.toNat) ∧
  mask (portMap 0#2) = 0x40#8 ∧ mask (portMap 1#2) = 0x01#8 ∧ mask (portMap 2#2) = 0x10#8 ∧
  mask (portMap 3#2) = 0x20#8 ∧ mask 7#3 = 0x80#8

/-- R110, R111: SELPORT always writes the control byte; the answer alone decides what CURPORT, the flags and the response
become; everything else stays. -/
def Obligations.SelportResult : Prop :=
  ∀ (p : Port) (s : State), s.idle →
    let answer := s.writeAnswer s.cfg.muxAddr (mask p) true
    let event := Event.write s.cfg.muxAddr (mask p) true answer
    let env' := (s.env.answerWrite s.cfg s.draws s.cfg.muxAddr (mask p) true).2
    (answer = .ack → exec (.selport p) s = .next { s with
      curport := some p, lref := false, lberr := false, hist := s.hist ++ [event], env := env',
      draws := s.draws + 1, responses := s.responses ++ [responseWord false false 0#8] }) ∧
    (answer = .nack → exec (.selport p) s = .next { s with
      curport := none, lref := false, lberr := true, berr := true, hist := s.hist ++ [event], env := env',
      draws := s.draws + 1, responses := s.responses ++ [responseWord false true 0#8] }) ∧
    (answer = .stall → exec (.selport p) s = .next { s with
      lref := false, lberr := false, stuck := true, hist := s.hist ++ [event], env := env', draws := s.draws + 1 })

/-! ### RDREG -/

/-- R112, R113, R114: RDREG on the port CURPORT names: the address write and the read, no selection. -/
def Obligations.RdregOnCurrentPort : Prop :=
  ∀ (p : Port) (r b : Byte) (s : State), s.idle → s.curport = some p →
    s.writeAnswer s.cfg.accAddr r false = .ack →
    (s.afterWrite s.cfg.accAddr r false).readAnswer s.cfg.accAddr = .ok b →
    exec (.rdreg p r) s = .next { s with
      rdata := b, lref := false, lberr := false,
      hist := s.hist ++ [.write s.cfg.accAddr r false .ack, .read s.cfg.accAddr (.ok b)],
      env := ((s.afterWrite s.cfg.accAddr r false).afterRead s.cfg.accAddr).env, draws := s.draws + 2,
      responses := s.responses ++ [responseWord false false b] }

/-- R112, R113, R114: RDREG on any other port: the selection first. -/
def Obligations.RdregOnOtherPort : Prop :=
  ∀ (p : Port) (r b : Byte) (s : State), s.idle → s.curport ≠ some p →
    let s1 := s.afterWrite s.cfg.muxAddr (mask p) true
    let s2 := s1.afterWrite s.cfg.accAddr r false
    s.writeAnswer s.cfg.muxAddr (mask p) true = .ack → s1.writeAnswer s.cfg.accAddr r false = .ack →
    s2.readAnswer s.cfg.accAddr = .ok b →
    exec (.rdreg p r) s = .next { s with
      curport := some p, rdata := b, lref := false, lberr := false,
      hist := s.hist ++ [.write s.cfg.muxAddr (mask p) true .ack, .write s.cfg.accAddr r false .ack,
        .read s.cfg.accAddr (.ok b)],
      env := (s2.afterRead s.cfg.accAddr).env, draws := s.draws + 3,
      responses := s.responses ++ [responseWord false false b] }

/-- R112, R113, R190: each phase of RDREG that fails ends it with the byte 0, and only a failed selection changes CURPORT. -/
def Obligations.RdregFailures : Prop :=
  ∀ (p : Port) (r : Byte) (s : State), s.idle →
    let failed (t : State) (events : List Event) (port : Option Port) : State := { s with
      curport := port, rdata := 0#8, lref := false, lberr := true, berr := true, hist := s.hist ++ events,
      env := t.env, draws := s.draws + events.length, responses := s.responses ++ [responseWord false true 0#8] }
    let s1 := s.afterWrite s.cfg.muxAddr (mask p) true
    let selection := Event.write s.cfg.muxAddr (mask p) true .ack
    (s.curport ≠ some p → s.writeAnswer s.cfg.muxAddr (mask p) true = .nack →
      exec (.rdreg p r) s = .next (failed s1 [.write s.cfg.muxAddr (mask p) true .nack] none)) ∧
    (s.curport ≠ some p → s.writeAnswer s.cfg.muxAddr (mask p) true = .ack →
      s1.writeAnswer s.cfg.accAddr r false = .nack →
      exec (.rdreg p r) s = .next (failed (s1.afterWrite s.cfg.accAddr r false)
        [selection, .write s.cfg.accAddr r false .nack] (some p))) ∧
    (s.curport ≠ some p → s.writeAnswer s.cfg.muxAddr (mask p) true = .ack →
      s1.writeAnswer s.cfg.accAddr r false = .ack →
      (s1.afterWrite s.cfg.accAddr r false).readAnswer s.cfg.accAddr = .nack →
      exec (.rdreg p r) s = .next (failed ((s1.afterWrite s.cfg.accAddr r false).afterRead s.cfg.accAddr)
        [selection, .write s.cfg.accAddr r false .ack, .read s.cfg.accAddr .nack] (some p))) ∧
    (s.curport = some p → s.writeAnswer s.cfg.accAddr r false = .nack →
      exec (.rdreg p r) s = .next (failed (s.afterWrite s.cfg.accAddr r false)
        [.write s.cfg.accAddr r false .nack] (some p))) ∧
    (s.curport = some p → s.writeAnswer s.cfg.accAddr r false = .ack →
      (s.afterWrite s.cfg.accAddr r false).readAnswer s.cfg.accAddr = .nack →
      exec (.rdreg p r) s = .next (failed ((s.afterWrite s.cfg.accAddr r false).afterRead s.cfg.accAddr)
        [.write s.cfg.accAddr r false .ack, .read s.cfg.accAddr .nack] (some p)))

/-- R114: `ReadReg(p, r)` performs a selection exactly when CURPORT ≠ some(p) at the moment it is called, never more than
one, and first. -/
def Obligations.SkipRule : Prop :=
  ∀ (p : Port) (r : Byte) (s : State), ∃ events : List Event,
    (readReg p r s).state.hist = s.hist ++ events ∧
    ((∃ e ∈ events, e.isSelection = true) ↔ s.curport ≠ some p) ∧
    (∀ e ∈ events.tail, e.isSelection = false) ∧
    (s.curport ≠ some p → ∃ r', events.head? = some (.write s.cfg.muxAddr (mask p) true r'))

/-- R112, R194: a `ReadReg` that completes ends at its first failing phase, so at most one primitive of it fails, the last
one, and then the byte is 0; it does one to three primitives; CURPORT names the port unless the selection failed. -/
def Obligations.ReadRegEndsAtFirstFailure : Prop :=
  ∀ (p : Port) (r b : Byte) (s t : State), readReg p r s = .done b t →
    ∃ events : List Event, t.hist = s.hist ++ events ∧ 1 ≤ events.length ∧ events.length ≤ 3 ∧
      (∀ e ∈ events.dropLast, e.failed = false) ∧
      (events.any Event.failed = true → b = 0#8 ∧ t.berr = true ∧ t.lberr = true) ∧
      (events.any Event.failed = false → events.getLast? = some (.read s.cfg.accAddr (.ok b)) ∧ t.berr = s.berr ∧
        t.lberr = s.lberr) ∧
      (t.curport = if events.any (fun e => e.isSelection && e.failed) then none else some p)

/-! ### ACQ -/

/-- R141: the sensor-to-port map and its control bytes: total, injective, not monotonic, never port 1, 2, 3 or 7. -/
def Obligations.SensorPortMap : Prop :=
  portMap 0#2 = 6#3 ∧ portMap 1#2 = 0#3 ∧ portMap 2#2 = 4#3 ∧ portMap 3#2 = 5#3 ∧
  mask (portMap 0#2) = 0x40#8 ∧ mask (portMap 1#2) = 0x01#8 ∧ mask (portMap 2#2) = 0x10#8 ∧
  mask (portMap 3#2) = 0x20#8 ∧
  (∀ s t : Sensor, portMap s = portMap t → s = t) ∧
  (∃ s t : Sensor, s.toNat < t.toNat ∧ (portMap t).toNat < (portMap s).toNat) ∧
  (∀ s : Sensor, portMap s ≠ 1#3 ∧ portMap s ≠ 2#3 ∧ portMap s ≠ 3#3 ∧ portMap s ≠ 7#3)

/-- R140: a byte's acceleration is its two's-complement reading, a bijection between bytes and −128 to 127. -/
def Obligations.AxisDecoding : Prop :=
  (∀ b : Byte, (decodeAxis b).toInt = asI8 b ∧ asU8 (decodeAxis b).toInt = b) ∧
  (∀ v : Int, -128 ≤ v → v ≤ 127 → ∃ b, (decodeAxis b).toInt = v) ∧
  (∀ b c : Byte, decodeAxis b = decodeAxis c → b = c) ∧
  (decodeAxis 0x00#8).toInt = 0 ∧ (decodeAxis 0x7F#8).toInt = 127 ∧ (decodeAxis 0x80#8).toInt = -128 ∧
  (decodeAxis 0xFF#8).toInt = -1 ∧ (decodeAxis 0xF3#8).toInt = -13

/-- R142, R143, R144: a round with no failure, from any port but 6: the 28 primitives in order, each sample from the bytes
its three reads returned, the cursor and WFULL advanced, CURPORT = some(5), response 0.
The script of answers is the model's form of the environment (log 2). -/
def Obligations.FailureFreeRound : Prop :=
  ∀ (s : State) (l rest : List Answer), s.idle → s.curport ≠ some 6#3 → l.length = 28 → (∀ a ∈ l, isOk a = true) →
    s.env = .script (l ++ rest) →
    ∃ t, exec .acq s = .next t ∧
      t = { s with
        curport := some 5#3, wslot := if s.wslot = 4 then 0 else s.wslot + 1,
        wfull := if s.wslot = 4 then true else if s.wslot = 0 then false else s.wfull, lref := false, lberr := false,
        win := t.win, winWritten := t.winWritten, hist := s.hist ++ roundTrace s.cfg l, env := .script rest,
        draws := s.draws + 28, responses := s.responses ++ [responseWord false false 0#8] } ∧
      Grid.get t.win 0#2 s.wslot = sampleAt l 1 ∧ Grid.get t.win 1#2 s.wslot = sampleAt l 8 ∧
      Grid.get t.win 2#2 s.wslot = sampleAt l 15 ∧ Grid.get t.win 3#2 s.wslot = sampleAt l 22 ∧
      (∀ (x : Sensor) (k : Slot), k ≠ s.wslot → Grid.get t.win x k = Grid.get s.win x k)

/-- R144: the same round when CURPORT = some(6): the first selection is skipped, 27 primitives. The script is log 2. -/
def Obligations.FailureFreeRoundFromPort6 : Prop :=
  ∀ (s : State) (l rest : List Answer), s.idle → s.curport = some 6#3 → l.length = 27 → (∀ a ∈ l, isOk a = true) →
    s.env = .script (l ++ rest) →
    ∃ t, exec .acq s = .next t ∧ t.idle ∧ t.curport = some 5#3 ∧ t.env = .script rest ∧
      t.hist = s.hist ++ (roundTrace s.cfg (.nack :: l)).tail ∧ (roundTrace s.cfg (.nack :: l)).tail.length = 27 ∧
      Grid.get t.win 0#2 s.wslot = sampleAt l 0 ∧ Grid.get t.win 1#2 s.wslot = sampleAt l 7 ∧
      Grid.get t.win 2#2 s.wslot = sampleAt l 14 ∧ Grid.get t.win 3#2 s.wslot = sampleAt l 21

/-- R142, R143, R173: whatever bus failures occur, a round in which no primitive stalls completes: every slot is passed, the
cursor and WFULL advance, the response says whether a failure occurred.
The script is log 2, the marks of written slots log 5. -/
def Obligations.AcqCompletesDespiteFailures : Prop :=
  ∀ (s : State) (l rest : List Answer), s.idle → 28 ≤ l.length → (∀ a ∈ l, completes a = true) →
    s.env = .script (l ++ rest) →
    ∃ t, exec .acq s = .next t ∧ t.idle ∧ t.wslot = (if s.wslot = 4 then 0 else s.wslot + 1) ∧
      t.wfull = (if s.wslot = 4 then true else if s.wslot = 0 then false else s.wfull) ∧ t.lref = false ∧
      t.responses = s.responses ++ [responseWord false t.lberr 0#8] ∧
      (∀ x : Sensor, Grid.get t.winWritten x s.wslot = true)

/-- R143 (3), (4): a round in which every control write fails stores (0, 0, 0) for every sensor, makes three selection
attempts per sensor and no sensor traffic, and still advances the cursor. The script is log 2. -/
def Obligations.RoundWithoutMultiplexer : Prop :=
  ∀ (s : State) (l rest : List Answer), s.idle → s.curport ≠ some 6#3 → l = List.replicate 12 .nack →
    s.env = .script (l ++ rest) →
    ∃ t, exec .acq s = .next t ∧ t.idle ∧ t.curport = none ∧ t.env = .script rest ∧ t.berr = true ∧ t.lberr = true ∧
      t.wslot = (if s.wslot = 4 then 0 else s.wslot + 1) ∧
      t.hist = s.hist ++ allSensors.flatMap (fun x =>
        List.replicate 3 (Event.write s.cfg.muxAddr (mask (portMap x)) true .nack)) ∧
      (∀ x : Sensor, Grid.get t.win x s.wslot = ⟨0#8, 0#8, 0#8⟩) ∧
      t.responses = s.responses ++ [responseWord false true 0#8]

/-- R35, R142: what ACQ leaves unchanged, whether it completes or hangs: OUT, RDATA, every slot but WSLOT, and everything
outside the block. -/
def Obligations.AcqFrame : Prop :=
  ∀ s t : State, exec .acq s = .next t →
    t.out = s.out ∧ (∀ a, t.out.read a = s.out.read a) ∧ t.rdata = s.rdata ∧ t.lref = false ∧ t.cfg = s.cfg ∧
    t.host = s.host ∧ t.regReads = s.regReads ∧
    (∀ (x : Sensor) (k : Slot), k ≠ s.wslot → Grid.get t.win x k = Grid.get s.win x k) ∧
    (t.stuck = true → t.wslot = s.wslot ∧ t.wfull = (if s.wslot = 0 then false else s.wfull))

/-! ### The filter's arithmetic -/

/-- R161: the integer definition of the filter and its equivalent forms. -/
def Obligations.FilterAxisDefinition : Prop :=
  ∀ v0 v1 v2 v3 v4 : I8,
    let sum := v0.toInt + v1.toInt + v2.toInt + v3.toInt + v4.toInt
    sum ≤ 635 ∧ -640 ≤ sum ∧
    (-50 < sum → sum < 50 → filterAxis v0 v1 v2 v3 v4 = 0#8) ∧
    (¬ (-50 < sum ∧ sum < 50) →
      (filterAxis v0 v1 v2 v3 v4).toInt = max (-128) (min 127 ⌊((sum : ℚ) + 2) / 5⌋) ∧
      (filterAxis v0 v1 v2 v3 v4).toInt = ⌊((sum : ℚ) + 2) / 5⌋ ∧
      (filterAxis v0 v1 v2 v3 v4).toInt = ⌊(2 * (sum : ℚ) + 5) / 10⌋ ∧
      (filterAxis v0 v1 v2 v3 v4).toInt = sum / 5 + (if sum % 5 = 3 ∨ sum % 5 = 4 then 1 else 0))

/-- R160, R164: the filter's result is the integer nearest to the real average after the dead zone, and the only one,
so that no tie rule can change it. -/
def Obligations.FilterIsNearestToAverage : Prop :=
  ∀ v0 v1 v2 v3 v4 : I8,
    |((filterAxis v0 v1 v2 v3 v4).toInt : ℚ) - deadZoneAverage v0 v1 v2 v3 v4| < 1 / 2 ∧
    ∀ n : ℤ, |(n : ℚ) - deadZoneAverage v0 v1 v2 v3 v4| ≤ 1 / 2 → n = (filterAxis v0 v1 v2 v3 v4).toInt

/-- R162: the exact range of the sum, an 11-bit accumulator that is enough, a 10-bit one that is not, and any order. -/
def Obligations.SumNeedsElevenBits : Prop :=
  (∀ v0 v1 v2 v3 v4 : I8, -640 ≤ axisSum v0 v1 v2 v3 v4 ∧ axisSum v0 v1 v2 v3 v4 ≤ 635 ∧
    (v0.signExtend 11 + v1.signExtend 11 + v2.signExtend 11 + v3.signExtend 11 + v4.signExtend 11).toInt =
      axisSum v0 v1 v2 v3 v4) ∧
  (∃ v0 v1 v2 v3 v4 : I8, axisSum v0 v1 v2 v3 v4 = -640) ∧ (∃ v0 v1 v2 v3 v4 : I8, axisSum v0 v1 v2 v3 v4 = 635) ∧
  (∃ v0 v1 v2 v3 v4 : I8,
    (v0.signExtend 10 + v1.signExtend 10 + v2.signExtend 10 + v3.signExtend 10 + v4.signExtend 10).toInt ≠
      axisSum v0 v1 v2 v3 v4) ∧
  (∀ l m : List I8, l.Perm m → (l.map BitVec.toInt).sum = (m.map BitVec.toInt).sum)

/-- R163: the dead zone is symmetric and strict: sums −49 to 49 give 0, sums 50 and −50 give 10 and −10. -/
def Obligations.DeadZoneIsStrict : Prop :=
  ∀ v0 v1 v2 v3 v4 : I8,
    (|axisSum v0 v1 v2 v3 v4| ≤ 49 ↔ filterAxis v0 v1 v2 v3 v4 = 0#8) ∧
    (axisSum v0 v1 v2 v3 v4 = 50 → (filterAxis v0 v1 v2 v3 v4).toInt = 10) ∧
    (axisSum v0 v1 v2 v3 v4 = -50 → (filterAxis v0 v1 v2 v3 v4).toInt = -10)

/-- R165: the rounded average always lies in −128 to 127, so saturating and truncating it both leave it unchanged. -/
def Obligations.SaturationNeverActs : Prop :=
  ∀ v0 v1 v2 v3 v4 : I8,
    let q := (axisSum v0 v1 v2 v3 v4 + 2) / 5
    q ≤ 127 ∧ -128 ≤ q ∧ sat8 q = q ∧ (BitVec.ofInt 8 q).toInt = q ∧
    (axisSum v0 v1 v2 v3 v4 = -640 → q = -128) ∧ (axisSum v0 v1 v2 v3 v4 = 635 → q = 127)

/-- R166: the filter's outputs are 0, 10 to 127 and −128 to −10, each of them is reached, and as bytes they are 0x00, 0x0A to
0x7F and 0x80 to 0xF6. -/
def Obligations.FilterOutputs : Prop :=
  (∀ v0 v1 v2 v3 v4 : I8, filterOutput (filterAxis v0 v1 v2 v3 v4)) ∧
  (∀ b : I8, filterOutput b → filterAxis b b b b b = b) ∧
  (∀ v0 v1 v2 v3 v4 : I8, (∀ v ∈ [v0, v1, v2, v3, v4], |v.toInt| < 10) → filterAxis v0 v1 v2 v3 v4 = 0#8) ∧
  (∀ b : Byte, filterOutput b ↔
    b = 0x00#8 ∨ (0x0A ≤ b.toNat ∧ b.toNat ≤ 0x7F) ∨ (0x80 ≤ b.toNat ∧ b.toNat ≤ 0xF6))

/-! ### FILT -/

/-- R167, R168: FILT with WFULL = 1 writes the three filtered bytes of its sensor and answers 0; it changes nothing else but
the flags. -/
def Obligations.FiltResult : Prop :=
  ∀ (x : Sensor) (s : State), s.idle → s.wfull = true →
    ∃ t, exec (.filt x) s = .next t ∧
      t = { s with out := t.out, lref := false, lberr := false,
                   responses := s.responses ++ [responseWord false false 0#8] } ∧
      t.out.read (x.toNat * s.cfg.accPackSize) = filterLane s.win x Vector3i8.x ∧
      t.out.read (x.toNat * s.cfg.accPackSize + 1) = filterLane s.win x Vector3i8.y ∧
      t.out.read (x.toNat * s.cfg.accPackSize + 2) = filterLane s.win x Vector3i8.z

/-- R168: FILT with WFULL = 0 is refused: OUT keeps its bytes, nothing is done but the flags and the response. -/
def Obligations.FiltRefusedOnPartialWindow : Prop :=
  ∀ (x : Sensor) (s : State), s.idle → s.wfull = false →
    exec (.filt x) s = .next { s with lref := true, lberr := false,
                                      responses := s.responses ++ [responseWord true false 0#8] }

/-- R35, R168 (2): every byte of OUT outside the three FILT stores is unchanged, those of the other sensors among them, and
everything outside OUT, the flags and the responses is unchanged. -/
def Obligations.FiltFrame : Prop :=
  ∀ (x : Sensor) (s t : State), exec (.filt x) s = .next t →
    (∀ a, (∀ j, j < 3 → a ≠ outOffset s.cfg x j) → t.out.read a = s.out.read a) ∧
    (∀ (y : Sensor) (j : Nat), y ≠ x → j < s.cfg.accPackSize →
      t.out.read (outOffset s.cfg y j) = s.out.read (outOffset s.cfg y j)) ∧
    t = { s with out := t.out, lref := t.lref, lberr := false, responses := t.responses }

/-- R168 (1), R171: FILT again, with nothing between, leaves the same bytes in OUT. -/
def Obligations.FiltIsIdempotent : Prop :=
  ∀ (x : Sensor) (s t : State), s.wfull = true → exec (.filt x) s = .next t →
    ∃ u, exec (.filt x) t = .next u ∧ ∀ a, u.out.read a = t.out.read a

/-- R170: a lane reads only its own axis of its own sensor: two states that agree there put the same byte in OUT, whatever
else differs. -/
def Obligations.LanesAreIndependent : Prop :=
  ∀ (x : Sensor) (s t s' t' : State), s.wfull = true → t.wfull = true → s.cfg = t.cfg →
    exec (.filt x) s = .next s' → exec (.filt x) t = .next t' →
    ((∀ k, (Grid.get s.win x k).x = (Grid.get t.win x k).x) →
      s'.out.read (outOffset s.cfg x 0) = t'.out.read (outOffset s.cfg x 0)) ∧
    ((∀ k, (Grid.get s.win x k).y = (Grid.get t.win x k).y) →
      s'.out.read (outOffset s.cfg x 1) = t'.out.read (outOffset s.cfg x 1)) ∧
    ((∀ k, (Grid.get s.win x k).z = (Grid.get t.win x k).z) →
      s'.out.read (outOffset s.cfg x 2) = t'.out.read (outOffset s.cfg x 2))

/-- R171: small samples filter to 0 under both readings of the source's bound; the converse is false. -/
def Obligations.SmallSamplesFilterToZero : Prop :=
  (∀ v0 v1 v2 v3 v4 : I8, (∀ v ∈ [v0, v1, v2, v3, v4], |v.toInt| < 10) → filterAxis v0 v1 v2 v3 v4 = 0#8) ∧
  (∀ v0 v1 v2 v3 v4 : I8, (∀ v ∈ [v0, v1, v2, v3, v4], |v.toInt| < 2) → filterAxis v0 v1 v2 v3 v4 = 0#8) ∧
  (∃ v0 v1 v2 v3 v4 : I8, 10 ≤ v0.toInt ∧ filterAxis v0 v1 v2 v3 v4 = 0#8)

/-! ### RUN -/

/-- R169: RUN completes whenever no primitive stalls, whatever bus failures occur: WSLOT ends 0, WFULL ends 1, every slot has
been written, OUT holds the twelve filtered bytes of the new window, and the response data is 0.
The script is log 2, the marks of written slots log 5. -/
def Obligations.RunCompletes : Prop :=
  ∀ (s : State) (l rest : List Answer), s.idle → 140 ≤ l.length → (∀ a ∈ l, completes a = true) →
    s.env = .script (l ++ rest) →
    ∃ t, exec .run s = .next t ∧ t.idle ∧ t.wslot = 0 ∧ t.wfull = true ∧ t.lref = false ∧
      (∀ (x : Sensor) (k : Slot), Grid.get t.winWritten x k = true) ∧
      (∀ x : Sensor, t.out.read (outOffset s.cfg x 0) = filterLane t.win x Vector3i8.x ∧
        t.out.read (outOffset s.cfg x 1) = filterLane t.win x Vector3i8.y ∧
        t.out.read (outOffset s.cfg x 2) = filterLane t.win x Vector3i8.z) ∧
      t.responses = s.responses ++ [responseWord false t.lberr 0#8]

/-- R169 (5): from WSLOT = 0, a RUN that completes leaves exactly the state and the history that five ACQ and the four FILT
leave, but for LBERR and the response words. -/
def Obligations.RunEqualsRoundsThenFilters : Prop :=
  ∀ s t : State, s.wslot = 0 → exec .run s = .next t → t.idle →
    ∃ u, execAll [.acq, .acq, .acq, .acq, .acq, .filt 0#2, .filt 1#2, .filt 2#2, .filt 3#2] s = .next u ∧
      { u with lberr := t.lberr, responses := t.responses } = t

/-- R169 (1), (3): a RUN that completes depends on nothing the window, its cursor or WFULL held before: it shares no sample
with an earlier cycle and discards the rounds of a partly filled one. The model's choice of WIN at reset (log 4) never shows
in it. -/
def Obligations.RunForgetsTheOldWindow : Prop :=
  ∀ (s t : State) (w : Grid Vector3i8) (g : Grid Bool) (k : Slot) (f : Bool),
    exec .run s = .next t → t.idle → exec .run (s.withWindow w g k f) = .next t

/-- R169: a RUN that hangs has not written OUT and gives no response. -/
def Obligations.HungRunKeepsOut : Prop :=
  ∀ s t : State, exec .run s = .next t → t.stuck = true →
    t.out = s.out ∧ t.responses = s.responses ∧ t.rdata = s.rdata

/-- R174: the bus traffic of a RUN without failure: 140 primitives, or 139 from CURPORT = some(6); 60 address writes, 60
reads, 20 or 19 selections. The script is log 2. -/
def Obligations.RunBusTraffic : Prop :=
  ∀ (s : State) (l rest : List Answer), s.idle → (∀ a ∈ l, isOk a = true) →
    l.length = (if s.curport = some 6#3 then 139 else 140) → s.env = .script (l ++ rest) →
    ∃ t events, exec .run s = .next t ∧ t.idle ∧ t.env = .script rest ∧ t.curport = some 5#3 ∧
      t.hist = s.hist ++ events ∧ events.length = l.length ∧ events.countP Event.isAddressWrite = 60 ∧
      events.countP Event.isRead = 60 ∧
      events.countP Event.isSelection = (if s.curport = some 6#3 then 19 else 20) ∧
      (∀ e ∈ events, e.fromBlock s.cfg) ∧ t.lberr = false

/-- R35, R169: what RUN leaves unchanged: RDATA, every byte of OUT outside the twelve result bytes, and everything outside the
block. -/
def Obligations.RunFrame : Prop :=
  ∀ s t : State, exec .run s = .next t →
    (∀ a, (∀ (x : Sensor) (j : Nat), j < 3 → a ≠ outOffset s.cfg x j) → t.out.read a = s.out.read a) ∧
    t.rdata = s.rdata ∧ t.lref = false ∧ t.cfg = s.cfg ∧ t.host = s.host ∧ t.regReads = s.regReads

/-! ### All commands -/

/-- R35: what SELPORT and RDREG leave unchanged, on every answer of the bus: WIN, WSLOT, WFULL, OUT, and for SELPORT also
RDATA. -/
def Obligations.BusCommandFrame : Prop :=
  (∀ (p : Port) (s t : State), exec (.selport p) s = .next t →
    t = { s with curport := t.curport, berr := t.berr, lberr := t.lberr, lref := false, stuck := t.stuck,
                 hist := t.hist, env := t.env, draws := t.draws, responses := t.responses } ∧
    ∀ a, t.out.read a = s.out.read a) ∧
  (∀ (p : Port) (r : Byte) (s t : State), exec (.rdreg p r) s = .next t →
    t = { s with curport := t.curport, rdata := t.rdata, berr := t.berr, lberr := t.lberr, lref := false,
                 stuck := t.stuck, hist := t.hist, env := t.env, draws := t.draws, responses := t.responses } ∧
    (t.stuck = true → t.rdata = s.rdata) ∧ ∀ a, t.out.read a = s.out.read a)

/-- R23, R30: no command reads BERR, LBERR or LREF: with other flags at the start it does exactly the same, but for the
sticky BERR. -/
def Obligations.FlagsNeverInfluence : Prop :=
  ∀ (i : Instr) (s : State) (b l r : Bool),
    exec i (s.withFlags b l r) = mapNext (fun t => { t with berr := b || t.lberr }) (exec i s)

/-- R30: after a command LBERR says whether it met a bus failure, BERR is set by every failure and never cleared by a
command, and LREF says whether the command was refused. -/
def Obligations.ErrorFlagsRecordFailures : Prop :=
  ∀ (i : Instr) (s t : State), exec i s = .next t →
    ∃ events, t.hist = s.hist ++ events ∧ t.lberr = events.any Event.failed ∧
      t.berr = (s.berr || events.any Event.failed) ∧ (t.lref = true ↔ s.wfull = false ∧ ∃ x, i = .filt x)

/-- R30, R241: BERR is cleared only by reset: a step that clears it takes a reset off the host's pending actions, the next
one where the block is idle. The list of host actions is the model's (log 1). -/
def Obligations.BerrClearedOnlyByReset : Prop :=
  ∀ s t : State, step s = .next t → s.berr = true → t.berr = false →
    ∃ (a : HostAction) (before after : List HostAction), (a = .reset ∨ a = .resetDuringCommand) ∧
      s.host = before ++ a :: after ∧ t.host = before ++ after ∧ (s.stuck = false → before = [])

/-- R31, R194 (4), R199: a command ends stuck exactly when a primitive stalled; that primitive is its last, and then it gives
no response. -/
def Obligations.StuckExactlyAfterStall : Prop :=
  ∀ (i : Instr) (s t : State), exec i s = .next t →
    ∃ events, t.hist = s.hist ++ events ∧ (t.stuck = true ↔ ∃ e ∈ events, e.stalled = true) ∧
      (∀ e ∈ events.dropLast, e.stalled = false) ∧ (t.stuck = true → t.responses = s.responses)

/-- R91, R115: the only bytes a command writes to a device are one-hot control bytes to the multiplexer and register
addresses to the accelerometer, and it reads only the accelerometer; H only grows.
The count of primitives is the model's (log 2). -/
def Obligations.BusTrafficOfCommands : Prop :=
  ∀ (i : Instr) (s t : State), exec i s = .next t →
    ∃ events, t.hist = s.hist ++ events ∧ t.draws = s.draws + events.length ∧ ∀ e ∈ events, e.fromBlock s.cfg

/-- R23, R168, R190: FILT and every refused command cause no bus activity. -/
def Obligations.FiltCausesNoBusActivity : Prop :=
  ∀ (x : Sensor) (s t : State), exec (.filt x) s = .next t →
    t.hist = s.hist ∧ t.env = s.env ∧ t.draws = s.draws ∧ t.curport = s.curport ∧ t.stuck = false ∧ t.berr = s.berr

/-! ### Every step -/

/-- R34: the invariants hold at reset. The marks of written slots are log 5, the canonical form log 11. -/
def Obligations.InvariantsAtReset : Prop := State.reset.Inv

/-- R34: every step keeps the invariants, with the canonical form of OUT.
The marks of written slots are log 5, the canonical form log 11. -/
def Obligations.StepKeepsInvariants : Prop :=
  ∀ s t : State, s.Inv → step s = .next t → t.Inv

/-- R24: CURPORT always names the port that the last completed selection in H selected, and is none after one that failed
and before the first. -/
def Obligations.StepKeepsCurportTrue : Prop :=
  ∀ s t : State, s.curport = lastSelected s.hist → step s = .next t → t.curport = lastSelected t.hist

/-- R32: no step changes the parameters. The model holds them in the state (log 3). -/
def Obligations.StepKeepsParameters : Prop :=
  ∀ s t : State, step s = .next t → t.cfg = s.cfg

/-! ### The bus and its environment -/

/-- R88, R89, R90: the byte layout of a selection and of a register read.
Parts of it are general I2C knowledge (log 13). -/
def Obligations.RegisterReadOnTheWire : Prop :=
  ∀ (c : Params) (p : Port) (r b : Byte),
    wireOf false [.write c.muxAddr (mask p) true .ack] =
      some [.start, .byte (c.muxAddr ++ 0#1), .ack, .byte (mask p), .ack, .stop] ∧
    wireOf false [.write c.accAddr r false .ack, .read c.accAddr (.ok b)] =
      some [.start, .byte (c.accAddr ++ 0#1), .ack, .byte r, .ack, .repeatedStart, .byte (c.accAddr ++ 1#1), .ack,
        .byte b, .nack, .stop]

/-- R56, R65: in the reference environment without scripted deviations, RDREG p r returns the byte the accelerometer on port
p holds in register r, or 0 with berr where the port carries none; afterwards port p is selected.
Details of that environment are log 9. -/
def Obligations.ReferenceEnvironmentRead : Prop :=
  ∀ (p : Port) (r : Byte) (s : State) (e : RefEnv), s.idle → s.env = .reference e → e.deviations = [] →
    (s.curport = some p → e.muxsel = some (mask p)) →
    ∃ t, exec (.rdreg p r) s = .next t ∧ t.idle ∧ t.curport = some p ∧
      (∀ d, e.devices[p.toNat]'p.isLt = some d → t.rdata = (d.values r).headD 0#8 ∧ t.lberr = false) ∧
      (e.devices[p.toNat]'p.isLt = none → t.rdata = 0#8 ∧ t.lberr = true)

/-- R114, R224: when the real routing is not what CURPORT says, a register read silently returns the byte of the sensor that
is really connected. Details of the reference environment are log 9. -/
def Obligations.WrongRoutingReadsWrongSensor : Prop :=
  ∀ (p q : Port) (r : Byte) (s : State) (e : RefEnv) (d : Device), s.idle → s.env = .reference e →
    e.deviations = [] → s.curport = some p → e.muxsel = some (mask q) →
    e.devices[q.toNat]'q.isLt = some d →
    ∃ t, exec (.rdreg p r) s = .next t ∧ t.rdata = (d.values r).headD 0#8 ∧ t.lberr = false ∧ t.curport = some p
end

