-- ==== Sys2Proof/Laws/State.lean ====
section
/-! SUPPORT. What each named update of State leaves in each field: one lemma per field per update, so that no proof unfolds a record update. -/

namespace Sys2Proof.Machine

variable (s : State)

/-! ### acceptFlags -/

@[simp] theorem State.acceptFlags_curport : (s.acceptFlags).curport = s.curport := rfl
@[simp] theorem State.acceptFlags_wslot : (s.acceptFlags).wslot = s.wslot := rfl
@[simp] theorem State.acceptFlags_wfull : (s.acceptFlags).wfull = s.wfull := rfl
@[simp] theorem State.acceptFlags_win : (s.acceptFlags).win = s.win := rfl
@[simp] theorem State.acceptFlags_out : (s.acceptFlags).out = s.out := rfl
@[simp] theorem State.acceptFlags_rdata : (s.acceptFlags).rdata = s.rdata := rfl
@[simp] theorem State.acceptFlags_berr : (s.acceptFlags).berr = s.berr := rfl
@[simp] theorem State.acceptFlags_lberr : (s.acceptFlags).lberr = false := rfl
@[simp] theorem State.acceptFlags_lref : (s.acceptFlags).lref = false := rfl
@[simp] theorem State.acceptFlags_stuck : (s.acceptFlags).stuck = s.stuck := rfl
@[simp] theorem State.acceptFlags_hist : (s.acceptFlags).hist = s.hist := rfl
@[simp] theorem State.acceptFlags_cfg : (s.acceptFlags).cfg = s.cfg := rfl
@[simp] theorem State.acceptFlags_env : (s.acceptFlags).env = s.env := rfl
@[simp] theorem State.acceptFlags_draws : (s.acceptFlags).draws = s.draws := rfl
@[simp] theorem State.acceptFlags_winWritten : (s.acceptFlags).winWritten = s.winWritten := rfl
@[simp] theorem State.acceptFlags_host : (s.acceptFlags).host = s.host := rfl
@[simp] theorem State.acceptFlags_responses : (s.acceptFlags).responses = s.responses := rfl
@[simp] theorem State.acceptFlags_regReads : (s.acceptFlags).regReads = s.regReads := rfl

/-! ### refuseFlags -/

@[simp] theorem State.refuseFlags_curport : (s.refuseFlags).curport = s.curport := rfl
@[simp] theorem State.refuseFlags_wslot : (s.refuseFlags).wslot = s.wslot := rfl
@[simp] theorem State.refuseFlags_wfull : (s.refuseFlags).wfull = s.wfull := rfl
@[simp] theorem State.refuseFlags_win : (s.refuseFlags).win = s.win := rfl
@[simp] theorem State.refuseFlags_out : (s.refuseFlags).out = s.out := rfl
@[simp] theorem State.refuseFlags_rdata : (s.refuseFlags).rdata = s.rdata := rfl
@[simp] theorem State.refuseFlags_berr : (s.refuseFlags).berr = s.berr := rfl
@[simp] theorem State.refuseFlags_lberr : (s.refuseFlags).lberr = false := rfl
@[simp] theorem State.refuseFlags_lref : (s.refuseFlags).lref = true := rfl
@[simp] theorem State.refuseFlags_stuck : (s.refuseFlags).stuck = s.stuck := rfl
@[simp] theorem State.refuseFlags_hist : (s.refuseFlags).hist = s.hist := rfl
@[simp] theorem State.refuseFlags_cfg : (s.refuseFlags).cfg = s.cfg := rfl
@[simp] theorem State.refuseFlags_env : (s.refuseFlags).env = s.env := rfl
@[simp] theorem State.refuseFlags_draws : (s.refuseFlags).draws = s.draws := rfl
@[simp] theorem State.refuseFlags_winWritten : (s.refuseFlags).winWritten = s.winWritten := rfl
@[simp] theorem State.refuseFlags_host : (s.refuseFlags).host = s.host := rfl
@[simp] theorem State.refuseFlags_responses : (s.refuseFlags).responses = s.responses := rfl
@[simp] theorem State.refuseFlags_regReads : (s.refuseFlags).regReads = s.regReads := rfl

/-! ### raiseBusError -/

@[simp] theorem State.raiseBusError_curport : (s.raiseBusError).curport = s.curport := rfl
@[simp] theorem State.raiseBusError_wslot : (s.raiseBusError).wslot = s.wslot := rfl
@[simp] theorem State.raiseBusError_wfull : (s.raiseBusError).wfull = s.wfull := rfl
@[simp] theorem State.raiseBusError_win : (s.raiseBusError).win = s.win := rfl
@[simp] theorem State.raiseBusError_out : (s.raiseBusError).out = s.out := rfl
@[simp] theorem State.raiseBusError_rdata : (s.raiseBusError).rdata = s.rdata := rfl
@[simp] theorem State.raiseBusError_berr : (s.raiseBusError).berr = true := rfl
@[simp] theorem State.raiseBusError_lberr : (s.raiseBusError).lberr = true := rfl
@[simp] theorem State.raiseBusError_lref : (s.raiseBusError).lref = s.lref := rfl
@[simp] theorem State.raiseBusError_stuck : (s.raiseBusError).stuck = s.stuck := rfl
@[simp] theorem State.raiseBusError_hist : (s.raiseBusError).hist = s.hist := rfl
@[simp] theorem State.raiseBusError_cfg : (s.raiseBusError).cfg = s.cfg := rfl
@[simp] theorem State.raiseBusError_env : (s.raiseBusError).env = s.env := rfl
@[simp] theorem State.raiseBusError_draws : (s.raiseBusError).draws = s.draws := rfl
@[simp] theorem State.raiseBusError_winWritten : (s.raiseBusError).winWritten = s.winWritten := rfl
@[simp] theorem State.raiseBusError_host : (s.raiseBusError).host = s.host := rfl
@[simp] theorem State.raiseBusError_responses : (s.raiseBusError).responses = s.responses := rfl
@[simp] theorem State.raiseBusError_regReads : (s.raiseBusError).regReads = s.regReads := rfl

/-! ### hang -/

@[simp] theorem State.hang_curport : (s.hang).curport = s.curport := rfl
@[simp] theorem State.hang_wslot : (s.hang).wslot = s.wslot := rfl
@[simp] theorem State.hang_wfull : (s.hang).wfull = s.wfull := rfl
@[simp] theorem State.hang_win : (s.hang).win = s.win := rfl
@[simp] theorem State.hang_out : (s.hang).out = s.out := rfl
@[simp] theorem State.hang_rdata : (s.hang).rdata = s.rdata := rfl
@[simp] theorem State.hang_berr : (s.hang).berr = s.berr := rfl
@[simp] theorem State.hang_lberr : (s.hang).lberr = s.lberr := rfl
@[simp] theorem State.hang_lref : (s.hang).lref = s.lref := rfl
@[simp] theorem State.hang_stuck : (s.hang).stuck = true := rfl
@[simp] theorem State.hang_hist : (s.hang).hist = s.hist := rfl
@[simp] theorem State.hang_cfg : (s.hang).cfg = s.cfg := rfl
@[simp] theorem State.hang_env : (s.hang).env = s.env := rfl
@[simp] theorem State.hang_draws : (s.hang).draws = s.draws := rfl
@[simp] theorem State.hang_winWritten : (s.hang).winWritten = s.winWritten := rfl
@[simp] theorem State.hang_host : (s.hang).host = s.host := rfl
@[simp] theorem State.hang_responses : (s.hang).responses = s.responses := rfl
@[simp] theorem State.hang_regReads : (s.hang).regReads = s.regReads := rfl

/-! ### setSample -/

@[simp] theorem State.setSample_curport (x : Sensor) (k : Slot) (v : Vector3i8) :
    (s.setSample x k v).curport = s.curport := rfl
@[simp] theorem State.setSample_wslot (x : Sensor) (k : Slot) (v : Vector3i8) :
    (s.setSample x k v).wslot = s.wslot := rfl
@[simp] theorem State.setSample_wfull (x : Sensor) (k : Slot) (v : Vector3i8) :
    (s.setSample x k v).wfull = s.wfull := rfl
@[simp] theorem State.setSample_win (x : Sensor) (k : Slot) (v : Vector3i8) :
    (s.setSample x k v).win = Grid.set s.win x k v := rfl
@[simp] theorem State.setSample_out (x : Sensor) (k : Slot) (v : Vector3i8) : (s.setSample x k v).out = s.out := rfl
@[simp] theorem State.setSample_rdata (x : Sensor) (k : Slot) (v : Vector3i8) :
    (s.setSample x k v).rdata = s.rdata := rfl
@[simp] theorem State.setSample_berr (x : Sensor) (k : Slot) (v : Vector3i8) :
    (s.setSample x k v).berr = s.berr := rfl
@[simp] theorem State.setSample_lberr (x : Sensor) (k : Slot) (v : Vector3i8) :
    (s.setSample x k v).lberr = s.lberr := rfl
@[simp] theorem State.setSample_lref (x : Sensor) (k : Slot) (v : Vector3i8) :
    (s.setSample x k v).lref = s.lref := rfl
@[simp] theorem State.setSample_stuck (x : Sensor) (k : Slot) (v : Vector3i8) :
    (s.setSample x k v).stuck = s.stuck := rfl
@[simp] theorem State.setSample_hist (x : Sensor) (k : Slot) (v : Vector3i8) :
    (s.setSample x k v).hist = s.hist := rfl
@[simp] theorem State.setSample_cfg (x : Sensor) (k : Slot) (v : Vector3i8) : (s.setSample x k v).cfg = s.cfg := rfl
@[simp] theorem State.setSample_env (x : Sensor) (k : Slot) (v : Vector3i8) : (s.setSample x k v).env = s.env := rfl
@[simp] theorem State.setSample_draws (x : Sensor) (k : Slot) (v : Vector3i8) :
    (s.setSample x k v).draws = s.draws := rfl
@[simp] theorem State.setSample_winWritten (x : Sensor) (k : Slot) (v : Vector3i8) :
    (s.setSample x k v).winWritten = Grid.set s.winWritten x k true := rfl
@[simp] theorem State.setSample_host (x : Sensor) (k : Slot) (v : Vector3i8) :
    (s.setSample x k v).host = s.host := rfl
@[simp] theorem State.setSample_responses (x : Sensor) (k : Slot) (v : Vector3i8) :
    (s.setSample x k v).responses = s.responses := rfl
@[simp] theorem State.setSample_regReads (x : Sensor) (k : Slot) (v : Vector3i8) :
    (s.setSample x k v).regReads = s.regReads := rfl

/-! ### setCurport -/

@[simp] theorem State.setCurport_curport (c : Option Port) : (s.setCurport c).curport = c := rfl
@[simp] theorem State.setCurport_wslot (c : Option Port) : (s.setCurport c).wslot = s.wslot := rfl
@[simp] theorem State.setCurport_wfull (c : Option Port) : (s.setCurport c).wfull = s.wfull := rfl
@[simp] theorem State.setCurport_win (c : Option Port) : (s.setCurport c).win = s.win := rfl
@[simp] theorem State.setCurport_out (c : Option Port) : (s.setCurport c).out = s.out := rfl
@[simp] theorem State.setCurport_rdata (c : Option Port) : (s.setCurport c).rdata = s.rdata := rfl
@[simp] theorem State.setCurport_berr (c : Option Port) : (s.setCurport c).berr = s.berr := rfl
@[simp] theorem State.setCurport_lberr (c : Option Port) : (s.setCurport c).lberr = s.lberr := rfl
@[simp] theorem State.setCurport_lref (c : Option Port) : (s.setCurport c).lref = s.lref := rfl
@[simp] theorem State.setCurport_stuck (c : Option Port) : (s.setCurport c).stuck = s.stuck := rfl
@[simp] theorem State.setCurport_hist (c : Option Port) : (s.setCurport c).hist = s.hist := rfl
@[simp] theorem State.setCurport_cfg (c : Option Port) : (s.setCurport c).cfg = s.cfg := rfl
@[simp] theorem State.setCurport_env (c : Option Port) : (s.setCurport c).env = s.env := rfl
@[simp] theorem State.setCurport_draws (c : Option Port) : (s.setCurport c).draws = s.draws := rfl
@[simp] theorem State.setCurport_winWritten (c : Option Port) : (s.setCurport c).winWritten = s.winWritten := rfl
@[simp] theorem State.setCurport_host (c : Option Port) : (s.setCurport c).host = s.host := rfl
@[simp] theorem State.setCurport_responses (c : Option Port) : (s.setCurport c).responses = s.responses := rfl
@[simp] theorem State.setCurport_regReads (c : Option Port) : (s.setCurport c).regReads = s.regReads := rfl

/-! ### setCursor -/

@[simp] theorem State.setCursor_curport (k : Slot) (f : Bool) : (s.setCursor k f).curport = s.curport := rfl
@[simp] theorem State.setCursor_wslot (k : Slot) (f : Bool) : (s.setCursor k f).wslot = k := rfl
@[simp] theorem State.setCursor_wfull (k : Slot) (f : Bool) : (s.setCursor k f).wfull = f := rfl
@[simp] theorem State.setCursor_win (k : Slot) (f : Bool) : (s.setCursor k f).win = s.win := rfl
@[simp] theorem State.setCursor_out (k : Slot) (f : Bool) : (s.setCursor k f).out = s.out := rfl
@[simp] theorem State.setCursor_rdata (k : Slot) (f : Bool) : (s.setCursor k f).rdata = s.rdata := rfl
@[simp] theorem State.setCursor_berr (k : Slot) (f : Bool) : (s.setCursor k f).berr = s.berr := rfl
@[simp] theorem State.setCursor_lberr (k : Slot) (f : Bool) : (s.setCursor k f).lberr = s.lberr := rfl
@[simp] theorem State.setCursor_lref (k : Slot) (f : Bool) : (s.setCursor k f).lref = s.lref := rfl
@[simp] theorem State.setCursor_stuck (k : Slot) (f : Bool) : (s.setCursor k f).stuck = s.stuck := rfl
@[simp] theorem State.setCursor_hist (k : Slot) (f : Bool) : (s.setCursor k f).hist = s.hist := rfl
@[simp] theorem State.setCursor_cfg (k : Slot) (f : Bool) : (s.setCursor k f).cfg = s.cfg := rfl
@[simp] theorem State.setCursor_env (k : Slot) (f : Bool) : (s.setCursor k f).env = s.env := rfl
@[simp] theorem State.setCursor_draws (k : Slot) (f : Bool) : (s.setCursor k f).draws = s.draws := rfl
@[simp] theorem State.setCursor_winWritten (k : Slot) (f : Bool) : (s.setCursor k f).winWritten = s.winWritten := rfl
@[simp] theorem State.setCursor_host (k : Slot) (f : Bool) : (s.setCursor k f).host = s.host := rfl
@[simp] theorem State.setCursor_responses (k : Slot) (f : Bool) : (s.setCursor k f).responses = s.responses := rfl
@[simp] theorem State.setCursor_regReads (k : Slot) (f : Bool) : (s.setCursor k f).regReads = s.regReads := rfl

/-! ### setOut -/

@[simp] theorem State.setOut_curport (a : Nat) (b : Byte) : (s.setOut a b).curport = s.curport := rfl
@[simp] theorem State.setOut_wslot (a : Nat) (b : Byte) : (s.setOut a b).wslot = s.wslot := rfl
@[simp] theorem State.setOut_wfull (a : Nat) (b : Byte) : (s.setOut a b).wfull = s.wfull := rfl
@[simp] theorem State.setOut_win (a : Nat) (b : Byte) : (s.setOut a b).win = s.win := rfl
@[simp] theorem State.setOut_out (a : Nat) (b : Byte) : (s.setOut a b).out = s.out.write a b := rfl
@[simp] theorem State.setOut_rdata (a : Nat) (b : Byte) : (s.setOut a b).rdata = s.rdata := rfl
@[simp] theorem State.setOut_berr (a : Nat) (b : Byte) : (s.setOut a b).berr = s.berr := rfl
@[simp] theorem State.setOut_lberr (a : Nat) (b : Byte) : (s.setOut a b).lberr = s.lberr := rfl
@[simp] theorem State.setOut_lref (a : Nat) (b : Byte) : (s.setOut a b).lref = s.lref := rfl
@[simp] theorem State.setOut_stuck (a : Nat) (b : Byte) : (s.setOut a b).stuck = s.stuck := rfl
@[simp] theorem State.setOut_hist (a : Nat) (b : Byte) : (s.setOut a b).hist = s.hist := rfl
@[simp] theorem State.setOut_cfg (a : Nat) (b : Byte) : (s.setOut a b).cfg = s.cfg := rfl
@[simp] theorem State.setOut_env (a : Nat) (b : Byte) : (s.setOut a b).env = s.env := rfl
@[simp] theorem State.setOut_draws (a : Nat) (b : Byte) : (s.setOut a b).draws = s.draws := rfl
@[simp] theorem State.setOut_winWritten (a : Nat) (b : Byte) : (s.setOut a b).winWritten = s.winWritten := rfl
@[simp] theorem State.setOut_host (a : Nat) (b : Byte) : (s.setOut a b).host = s.host := rfl
@[simp] theorem State.setOut_responses (a : Nat) (b : Byte) : (s.setOut a b).responses = s.responses := rfl
@[simp] theorem State.setOut_regReads (a : Nat) (b : Byte) : (s.setOut a b).regReads = s.regReads := rfl

/-! ### setRdata -/

@[simp] theorem State.setRdata_curport (b : Byte) : (s.setRdata b).curport = s.curport := rfl
@[simp] theorem State.setRdata_wslot (b : Byte) : (s.setRdata b).wslot = s.wslot := rfl
@[simp] theorem State.setRdata_wfull (b : Byte) : (s.setRdata b).wfull = s.wfull := rfl
@[simp] theorem State.setRdata_win (b : Byte) : (s.setRdata b).win = s.win := rfl
@[simp] theorem State.setRdata_out (b : Byte) : (s.setRdata b).out = s.out := rfl
@[simp] theorem State.setRdata_rdata (b : Byte) : (s.setRdata b).rdata = b := rfl
@[simp] theorem State.setRdata_berr (b : Byte) : (s.setRdata b).berr = s.berr := rfl
@[simp] theorem State.setRdata_lberr (b : Byte) : (s.setRdata b).lberr = s.lberr := rfl
@[simp] theorem State.setRdata_lref (b : Byte) : (s.setRdata b).lref = s.lref := rfl
@[simp] theorem State.setRdata_stuck (b : Byte) : (s.setRdata b).stuck = s.stuck := rfl
@[simp] theorem State.setRdata_hist (b : Byte) : (s.setRdata b).hist = s.hist := rfl
@[simp] theorem State.setRdata_cfg (b : Byte) : (s.setRdata b).cfg = s.cfg := rfl
@[simp] theorem State.setRdata_env (b : Byte) : (s.setRdata b).env = s.env := rfl
@[simp] theorem State.setRdata_draws (b : Byte) : (s.setRdata b).draws = s.draws := rfl
@[simp] theorem State.setRdata_winWritten (b : Byte) : (s.setRdata b).winWritten = s.winWritten := rfl
@[simp] theorem State.setRdata_host (b : Byte) : (s.setRdata b).host = s.host := rfl
@[simp] theorem State.setRdata_responses (b : Byte) : (s.setRdata b).responses = s.responses := rfl
@[simp] theorem State.setRdata_regReads (b : Byte) : (s.setRdata b).regReads = s.regReads := rfl

/-! ### logEvent -/

@[simp] theorem State.logEvent_curport (e : Event) (v : Env) : (s.logEvent e v).curport = s.curport := rfl
@[simp] theorem State.logEvent_wslot (e : Event) (v : Env) : (s.logEvent e v).wslot = s.wslot := rfl
@[simp] theorem State.logEvent_wfull (e : Event) (v : Env) : (s.logEvent e v).wfull = s.wfull := rfl
@[simp] theorem State.logEvent_win (e : Event) (v : Env) : (s.logEvent e v).win = s.win := rfl
@[simp] theorem State.logEvent_out (e : Event) (v : Env) : (s.logEvent e v).out = s.out := rfl
@[simp] theorem State.logEvent_rdata (e : Event) (v : Env) : (s.logEvent e v).rdata = s.rdata := rfl
@[simp] theorem State.logEvent_berr (e : Event) (v : Env) : (s.logEvent e v).berr = s.berr := rfl
@[simp] theorem State.logEvent_lberr (e : Event) (v : Env) : (s.logEvent e v).lberr = s.lberr := rfl
@[simp] theorem State.logEvent_lref (e : Event) (v : Env) : (s.logEvent e v).lref = s.lref := rfl
@[simp] theorem State.logEvent_stuck (e : Event) (v : Env) : (s.logEvent e v).stuck = s.stuck := rfl
@[simp] theorem State.logEvent_hist (e : Event) (v : Env) : (s.logEvent e v).hist = s.hist ++ [e] := rfl
@[simp] theorem State.logEvent_cfg (e : Event) (v : Env) : (s.logEvent e v).cfg = s.cfg := rfl
@[simp] theorem State.logEvent_env (e : Event) (v : Env) : (s.logEvent e v).env = v := rfl
@[simp] theorem State.logEvent_draws (e : Event) (v : Env) : (s.logEvent e v).draws = s.draws + 1 := rfl
@[simp] theorem State.logEvent_winWritten (e : Event) (v : Env) : (s.logEvent e v).winWritten = s.winWritten := rfl
@[simp] theorem State.logEvent_host (e : Event) (v : Env) : (s.logEvent e v).host = s.host := rfl
@[simp] theorem State.logEvent_responses (e : Event) (v : Env) : (s.logEvent e v).responses = s.responses := rfl
@[simp] theorem State.logEvent_regReads (e : Event) (v : Env) : (s.logEvent e v).regReads = s.regReads := rfl

/-! ### respond -/

@[simp] theorem State.respond_curport (w : ResponseWord) : (s.respond w).curport = s.curport := rfl
@[simp] theorem State.respond_wslot (w : ResponseWord) : (s.respond w).wslot = s.wslot := rfl
@[simp] theorem State.respond_wfull (w : ResponseWord) : (s.respond w).wfull = s.wfull := rfl
@[simp] theorem State.respond_win (w : ResponseWord) : (s.respond w).win = s.win := rfl
@[simp] theorem State.respond_out (w : ResponseWord) : (s.respond w).out = s.out := rfl
@[simp] theorem State.respond_rdata (w : ResponseWord) : (s.respond w).rdata = s.rdata := rfl
@[simp] theorem State.respond_berr (w : ResponseWord) : (s.respond w).berr = s.berr := rfl
@[simp] theorem State.respond_lberr (w : ResponseWord) : (s.respond w).lberr = s.lberr := rfl
@[simp] theorem State.respond_lref (w : ResponseWord) : (s.respond w).lref = s.lref := rfl
@[simp] theorem State.respond_stuck (w : ResponseWord) : (s.respond w).stuck = s.stuck := rfl
@[simp] theorem State.respond_hist (w : ResponseWord) : (s.respond w).hist = s.hist := rfl
@[simp] theorem State.respond_cfg (w : ResponseWord) : (s.respond w).cfg = s.cfg := rfl
@[simp] theorem State.respond_env (w : ResponseWord) : (s.respond w).env = s.env := rfl
@[simp] theorem State.respond_draws (w : ResponseWord) : (s.respond w).draws = s.draws := rfl
@[simp] theorem State.respond_winWritten (w : ResponseWord) : (s.respond w).winWritten = s.winWritten := rfl
@[simp] theorem State.respond_host (w : ResponseWord) : (s.respond w).host = s.host := rfl
@[simp] theorem State.respond_responses (w : ResponseWord) : (s.respond w).responses = s.responses ++ [w] := rfl
@[simp] theorem State.respond_regReads (w : ResponseWord) : (s.respond w).regReads = s.regReads := rfl

/-! ### afterWrite -/

@[simp] theorem State.afterWrite_curport (a : BusAddr) (b : Byte) (stop : Bool) :
    (s.afterWrite a b stop).curport = s.curport := rfl
@[simp] theorem State.afterWrite_wslot (a : BusAddr) (b : Byte) (stop : Bool) :
    (s.afterWrite a b stop).wslot = s.wslot := rfl
@[simp] theorem State.afterWrite_wfull (a : BusAddr) (b : Byte) (stop : Bool) :
    (s.afterWrite a b stop).wfull = s.wfull := rfl
@[simp] theorem State.afterWrite_win (a : BusAddr) (b : Byte) (stop : Bool) :
    (s.afterWrite a b stop).win = s.win := rfl
@[simp] theorem State.afterWrite_out (a : BusAddr) (b : Byte) (stop : Bool) :
    (s.afterWrite a b stop).out = s.out := rfl
@[simp] theorem State.afterWrite_rdata (a : BusAddr) (b : Byte) (stop : Bool) :
    (s.afterWrite a b stop).rdata = s.rdata := rfl
@[simp] theorem State.afterWrite_berr (a : BusAddr) (b : Byte) (stop : Bool) :
    (s.afterWrite a b stop).berr = s.berr := rfl
@[simp] theorem State.afterWrite_lberr (a : BusAddr) (b : Byte) (stop : Bool) :
    (s.afterWrite a b stop).lberr = s.lberr := rfl
@[simp] theorem State.afterWrite_lref (a : BusAddr) (b : Byte) (stop : Bool) :
    (s.afterWrite a b stop).lref = s.lref := rfl
@[simp] theorem State.afterWrite_stuck (a : BusAddr) (b : Byte) (stop : Bool) :
    (s.afterWrite a b stop).stuck = s.stuck := rfl
@[simp] theorem State.afterWrite_hist (a : BusAddr) (b : Byte) (stop : Bool) :
    (s.afterWrite a b stop).hist = s.hist ++ [.write a b stop (s.writeAnswer a b stop)] := rfl
@[simp] theorem State.afterWrite_cfg (a : BusAddr) (b : Byte) (stop : Bool) :
    (s.afterWrite a b stop).cfg = s.cfg := rfl
@[simp] theorem State.afterWrite_env (a : BusAddr) (b : Byte) (stop : Bool) :
    (s.afterWrite a b stop).env = (s.env.answerWrite s.cfg s.draws a b stop).2 := rfl
@[simp] theorem State.afterWrite_draws (a : BusAddr) (b : Byte) (stop : Bool) :
    (s.afterWrite a b stop).draws = s.draws + 1 := rfl
@[simp] theorem State.afterWrite_winWritten (a : BusAddr) (b : Byte) (stop : Bool) :
    (s.afterWrite a b stop).winWritten = s.winWritten := rfl
@[simp] theorem State.afterWrite_host (a : BusAddr) (b : Byte) (stop : Bool) :
    (s.afterWrite a b stop).host = s.host := rfl
@[simp] theorem State.afterWrite_responses (a : BusAddr) (b : Byte) (stop : Bool) :
    (s.afterWrite a b stop).responses = s.responses := rfl
@[simp] theorem State.afterWrite_regReads (a : BusAddr) (b : Byte) (stop : Bool) :
    (s.afterWrite a b stop).regReads = s.regReads := rfl

/-! ### afterRead -/

@[simp] theorem State.afterRead_curport (a : BusAddr) : (s.afterRead a).curport = s.curport := rfl
@[simp] theorem State.afterRead_wslot (a : BusAddr) : (s.afterRead a).wslot = s.wslot := rfl
@[simp] theorem State.afterRead_wfull (a : BusAddr) : (s.afterRead a).wfull = s.wfull := rfl
@[simp] theorem State.afterRead_win (a : BusAddr) : (s.afterRead a).win = s.win := rfl
@[simp] theorem State.afterRead_out (a : BusAddr) : (s.afterRead a).out = s.out := rfl
@[simp] theorem State.afterRead_rdata (a : BusAddr) : (s.afterRead a).rdata = s.rdata := rfl
@[simp] theorem State.afterRead_berr (a : BusAddr) : (s.afterRead a).berr = s.berr := rfl
@[simp] theorem State.afterRead_lberr (a : BusAddr) : (s.afterRead a).lberr = s.lberr := rfl
@[simp] theorem State.afterRead_lref (a : BusAddr) : (s.afterRead a).lref = s.lref := rfl
@[simp] theorem State.afterRead_stuck (a : BusAddr) : (s.afterRead a).stuck = s.stuck := rfl
@[simp] theorem State.afterRead_hist (a : BusAddr) :
    (s.afterRead a).hist = s.hist ++ [.read a (s.readAnswer a)] := rfl
@[simp] theorem State.afterRead_cfg (a : BusAddr) : (s.afterRead a).cfg = s.cfg := rfl
@[simp] theorem State.afterRead_env (a : BusAddr) : (s.afterRead a).env = (s.env.answerRead s.cfg s.draws a).2 := rfl
@[simp] theorem State.afterRead_draws (a : BusAddr) : (s.afterRead a).draws = s.draws + 1 := rfl
@[simp] theorem State.afterRead_winWritten (a : BusAddr) : (s.afterRead a).winWritten = s.winWritten := rfl
@[simp] theorem State.afterRead_host (a : BusAddr) : (s.afterRead a).host = s.host := rfl
@[simp] theorem State.afterRead_responses (a : BusAddr) : (s.afterRead a).responses = s.responses := rfl
@[simp] theorem State.afterRead_regReads (a : BusAddr) : (s.afterRead a).regReads = s.regReads := rfl

/-! ### withFlags -/

@[simp] theorem State.withFlags_curport (b l r : Bool) : (s.withFlags b l r).curport = s.curport := rfl
@[simp] theorem State.withFlags_wslot (b l r : Bool) : (s.withFlags b l r).wslot = s.wslot := rfl
@[simp] theorem State.withFlags_wfull (b l r : Bool) : (s.withFlags b l r).wfull = s.wfull := rfl
@[simp] theorem State.withFlags_win (b l r : Bool) : (s.withFlags b l r).win = s.win := rfl
@[simp] theorem State.withFlags_out (b l r : Bool) : (s.withFlags b l r).out = s.out := rfl
@[simp] theorem State.withFlags_rdata (b l r : Bool) : (s.withFlags b l r).rdata = s.rdata := rfl
@[simp] theorem State.withFlags_berr (b l r : Bool) : (s.withFlags b l r).berr = b := rfl
@[simp] theorem State.withFlags_lberr (b l r : Bool) : (s.withFlags b l r).lberr = l := rfl
@[simp] theorem State.withFlags_lref (b l r : Bool) : (s.withFlags b l r).lref = r := rfl
@[simp] theorem State.withFlags_stuck (b l r : Bool) : (s.withFlags b l r).stuck = s.stuck := rfl
@[simp] theorem State.withFlags_hist (b l r : Bool) : (s.withFlags b l r).hist = s.hist := rfl
@[simp] theorem State.withFlags_cfg (b l r : Bool) : (s.withFlags b l r).cfg = s.cfg := rfl
@[simp] theorem State.withFlags_env (b l r : Bool) : (s.withFlags b l r).env = s.env := rfl
@[simp] theorem State.withFlags_draws (b l r : Bool) : (s.withFlags b l r).draws = s.draws := rfl
@[simp] theorem State.withFlags_winWritten (b l r : Bool) : (s.withFlags b l r).winWritten = s.winWritten := rfl
@[simp] theorem State.withFlags_host (b l r : Bool) : (s.withFlags b l r).host = s.host := rfl
@[simp] theorem State.withFlags_responses (b l r : Bool) : (s.withFlags b l r).responses = s.responses := rfl
@[simp] theorem State.withFlags_regReads (b l r : Bool) : (s.withFlags b l r).regReads = s.regReads := rfl

/-! ### Reset -/

@[simp] theorem State.resetBlock_cfg : s.resetBlock.cfg = s.cfg := rfl
@[simp] theorem State.resetBlock_env : s.resetBlock.env = s.env := rfl
@[simp] theorem State.resetBlock_draws : s.resetBlock.draws = s.draws := rfl
@[simp] theorem State.resetBlock_host : s.resetBlock.host = s.host := rfl
@[simp] theorem State.resetBlock_responses : s.resetBlock.responses = s.responses := rfl
@[simp] theorem State.resetBlock_regReads : s.resetBlock.regReads = s.regReads := rfl
@[simp] theorem State.resetMidTransaction_env : s.resetMidTransaction.env = .script [] := rfl
@[simp] theorem State.resetMidTransaction_cfg : s.resetMidTransaction.cfg = s.cfg := rfl

/-! ### The answers of the bus do not look at the flags -/

@[simp] theorem State.acceptFlags_writeAnswer (a : BusAddr) (b : Byte) (stop : Bool) :
    s.acceptFlags.writeAnswer a b stop = s.writeAnswer a b stop := rfl
@[simp] theorem State.acceptFlags_readAnswer (a : BusAddr) : s.acceptFlags.readAnswer a = s.readAnswer a := rfl

end Sys2Proof.Machine
end

