-- ==== Sys2Proof/Laws/Memory.lean ====
section
/-! SUPPORT. The laws of OUT as a memory and of WIN as a grid: reading what was written, canonical form kept. -/

namespace Sys2Proof.Machine

/-! ### OUT -/

@[simp] theorem Memory.read_nil (a : Nat) : Memory.read [] a = 0#8 := rfl

theorem Memory.read_filter_ne (m : Memory) (a c : Nat) :
    Memory.read (m.filter fun d => d.1 != a) c = if a = c then 0#8 else Memory.read m c := by
  induction m with
  | nil => simp
  | cons d m ih =>
    obtain ⟨x, v⟩ := d
    by_cases hx : x = a
    · subst hx
      by_cases hc : x = c <;> simp_all [Memory.read]
    · by_cases hc : x = c
      · subst hc; simp [Memory.read, hx, Ne.symm hx]
      · simp [Memory.read, hx, hc, ih]

theorem Memory.read_insert (m : Memory) (a c : Nat) (b : Byte) (h : ∀ d ∈ m, d.1 ≠ a) :
    Memory.read (Memory.insert (a, b) m) c = if a = c then b else Memory.read m c := by
  induction m with
  | nil => simp [Memory.insert, Memory.read]
  | cons d m ih =>
    obtain ⟨x, v⟩ := d
    have hx : x ≠ a := h (x, v) (by simp)
    have ih := ih fun d hd => h d (by simp [hd])
    by_cases hlt : a < x
    · simp [Memory.insert, hlt, Memory.read]
    · by_cases hc : x = c
      · subst hc; simp [Memory.insert, hlt, Memory.read, Ne.symm hx]
      · simp [Memory.insert, hlt, Memory.read, hc, ih]

/-- Reading after a write: the byte written at its own offset, the old byte everywhere else. -/
theorem Memory.read_write (m : Memory) (a c : Nat) (b : Byte) :
    (m.write a b).read c = if a = c then b else m.read c := by
  unfold Memory.write
  by_cases hb : b = 0#8
  · simp [hb, Memory.read_filter_ne]
  · simp only [hb, if_false]
    rw [Memory.read_insert _ _ _ _ (by simp), Memory.read_filter_ne]
    by_cases hc : a = c <;> simp [hc]

@[simp] theorem Memory.read_write_same (m : Memory) (a : Nat) (b : Byte) : (m.write a b).read a = b := by
  simp [Memory.read_write]

theorem Memory.read_write_other (m : Memory) {a c : Nat} (b : Byte) (h : a ≠ c) :
    (m.write a b).read c = m.read c := by simp [Memory.read_write, h]

theorem Memory.mem_insert (m : Memory) (c d : Host.Cell) : d ∈ Memory.insert c m ↔ d = c ∨ d ∈ m := by
  induction m with
  | nil => simp [Memory.insert]
  | cons e m ih =>
    by_cases h : c.1 < e.1
    · simp [Memory.insert, h]
    · simp [Memory.insert, h, ih]; tauto

theorem Memory.insert_wf (m : Memory) (a : Nat) (b : Byte) (hm : m.wf) (ha : ∀ d ∈ m, d.1 ≠ a) (hb : b ≠ 0#8) :
    (Memory.insert (a, b) m).wf := by
  obtain ⟨hp, hz⟩ := hm
  refine ⟨?_, fun c hc => ?_⟩
  · induction m with
    | nil => simp [Memory.insert]
    | cons e m ih =>
      rw [List.pairwise_cons] at hp
      have he : e.1 ≠ a := ha e (by simp)
      by_cases h : a < e.1
      · simp only [Memory.insert, h, if_true, List.pairwise_cons, List.mem_cons]
        refine ⟨?_, hp⟩
        rintro c (rfl | hc)
        · exact h
        · exact lt_trans h (hp.1 c hc)
      · simp only [Memory.insert, h, if_false, List.pairwise_cons, Memory.mem_insert]
        refine ⟨?_, ih (fun d hd => ha d (by simp [hd])) hp.2 (fun d hd => hz d (by simp [hd]))⟩
        rintro c (rfl | hc)
        · show e.1 < a
          omega
        · exact hp.1 c hc
  · rw [Memory.mem_insert] at hc
    rcases hc with rfl | hc
    · exact hb
    · exact hz c hc

/-- A write keeps the canonical form. -/
theorem Memory.write_wf (m : Memory) (a : Nat) (b : Byte) (hm : m.wf) : (m.write a b).wf := by
  have hf : Memory.wf (m.filter fun c => c.1 != a) :=
    ⟨hm.1.filter _, fun c hc => hm.2 c (List.mem_of_mem_filter hc)⟩
  unfold Memory.write
  by_cases hb : b = 0#8
  · simpa [hb] using hf
  · simp only [hb, if_false]
    exact Memory.insert_wf _ _ _ hf (by simp) hb

/-- A write lists no offset but its own and those listed before. -/
theorem Memory.mem_write (m : Memory) (a : Nat) (b : Byte) (c : Host.Cell) (h : c ∈ m.write a b) :
    c.1 = a ∨ c ∈ m := by
  unfold Memory.write at h
  by_cases hb : b = 0#8
  · simp [hb] at h; exact Or.inr h.1
  · simp only [hb, if_false, Memory.mem_insert] at h
    rcases h with rfl | h
    · exact Or.inl rfl
    · exact Or.inr (List.mem_of_mem_filter h)

/-- Two canonical memories that read the same are equal. -/
theorem Memory.eq_of_read (m n : Memory) (hm : m.wf) (hn : n.wf) (h : ∀ a, m.read a = n.read a) : m = n := by
  have below : ∀ (l : Memory) (a : Nat), (∀ c ∈ l, a < c.1) → l.read a = 0#8 := by
    intro l a hl
    induction l with
    | nil => rfl
    | cons c l ih =>
      have hc : c.1 ≠ a := (hl c (by simp)).ne'
      simp [Memory.read, hc, ih fun d hd => hl d (by simp [hd])]
  induction m generalizing n with
  | nil =>
    cases n with
    | nil => rfl
    | cons c n =>
      have := h c.1
      simp [Memory.read] at this
      exact absurd this.symm (hn.2 c (by simp))
  | cons c m ih =>
    cases n with
    | nil =>
      have := h c.1
      simp [Memory.read] at this
      exact absurd this (hm.2 c (by simp))
    | cons d n =>
      obtain ⟨hmp, hmz⟩ := hm
      obtain ⟨hnp, hnz⟩ := hn
      rw [List.pairwise_cons] at hmp hnp
      have heads : c.1 = d.1 := by
        rcases lt_trichotomy c.1 d.1 with hlt | heq | hgt
        · have hc := h c.1
          rw [below (d :: n) c.1 (by
            intro e he
            rcases List.mem_cons.1 he with rfl | he
            · exact hlt
            · exact lt_trans hlt (hnp.1 e he))] at hc
          simp [Memory.read] at hc
          exact absurd hc (hmz c (by simp))
        · exact heq
        · have hd := h d.1
          rw [below (c :: m) d.1 (by
            intro e he
            rcases List.mem_cons.1 he with rfl | he
            · exact hgt
            · exact lt_trans hgt (hmp.1 e he))] at hd
          simp [Memory.read] at hd
          exact absurd hd.symm (hnz d (by simp))
      have values : c.2 = d.2 := by have := h c.1; simpa [Memory.read, heads] using this
      have hcd : c = d := Prod.ext heads values
      subst hcd
      congr 1
      refine ih n ⟨hmp.2, fun e he => hmz e (by simp [he])⟩ ⟨hnp.2, fun e he => hnz e (by simp [he])⟩ fun a => ?_
      by_cases ha : c.1 = a
      · rw [below m a (by subst ha; exact hmp.1), below n a (by subst ha; exact hnp.1)]
      · have := h a
        simpa [Memory.read, ha] using this

/-! ### WIN -/

@[simp] theorem Grid.get_set_same {α : Type} (g : Grid α) (s : Sensor) (k : Slot) (v : α) :
    Grid.get (Grid.set g s k v) s k = v := by simp [Grid.get, Grid.set]

/-- An entry of a grid after a write: the new one at its own place, the old one everywhere else. -/
theorem Grid.get_set {α : Type} (g : Grid α) (s t : Sensor) (k j : Slot) (v : α) :
    Grid.get (Grid.set g s k v) t j = if s = t ∧ k = j then v else Grid.get g t j := by
  by_cases hs : s = t
  · subst hs
    by_cases hk : k = j
    · subst hk; simp
    · have : k.val ≠ j.val := fun h => hk (Fin.ext h)
      simp [Grid.get, Grid.set, hk, this]
  · have : s.toNat ≠ t.toNat := fun h => hs (BitVec.eq_of_toNat_eq h)
    simp [Grid.get, Grid.set, hs, this]

/-- Two grids with the same entries are equal. -/
theorem Grid.ext_get {α : Type} (g h : Grid α) (e : ∀ (s : Sensor) (k : Slot), Grid.get g s k = Grid.get h s k) :
    g = h := by
  apply Vector.ext
  intro i hi
  apply Vector.ext
  intro j hj
  have := e (BitVec.ofNat 2 i) ⟨j, hj⟩
  have hmod : i % 4 = i := Nat.mod_eq_of_lt hi
  simpa [Grid.get, hmod] using this

end Sys2Proof.Machine
end

