-- ==== Sys2Proof/Laws/Bus.lean ====
section
/-! SUPPORT. What the bus procedures can do, said once: the trace they add to H, the flags it sets, and everything they leave alone. -/

namespace Sys2Proof.Machine

/-! ### Flow -/

@[simp] theorem Flow.bind_done {α β : Type} (a : α) (s : State) (f : α → State → Flow β) :
    (Flow.done a s).bind f = f a s := rfl
@[simp] theorem Flow.bind_hung {α β : Type} (s : State) (f : α → State → Flow β) :
    (Flow.hung s : Flow α).bind f = .hung s := rfl
@[simp] theorem Flow.state_done {α : Type} (a : α) (s : State) : (Flow.done a s).state = s := rfl
@[simp] theorem Flow.state_hung {α : Type} (s : State) : (Flow.hung s : Flow α).state = s := rfl

/-- The procedure hung. -/
def Flow.isHung {α : Type} : Flow α → Bool
  | .done _ _ => false
  | .hung _ => true

@[simp] theorem Flow.isHung_done {α : Type} (a : α) (s : State) : (Flow.done a s).isHung = false := rfl
@[simp] theorem Flow.isHung_hung {α : Type} (s : State) : (Flow.hung s : Flow α).isHung = true := rfl

theorem Flow.bind_assoc {α β γ : Type} (x : Flow α) (f : α → State → Flow β) (g : β → State → Flow γ) :
    (x.bind f).bind g = x.bind fun a s => (f a s).bind g := by cases x <;> rfl

/-! ### The answers of a script -/

theorem State.writeAnswer_script {s : State} {a : Answer} {l : List Answer} (h : s.env = .script (a :: l))
    (x : BusAddr) (b : Byte) (stop : Bool) : s.writeAnswer x b stop = writeResult a := by
  simp [State.writeAnswer, h, Env.answerWrite, nextAnswer]

theorem State.readAnswer_script {s : State} {a : Answer} {l : List Answer} (h : s.env = .script (a :: l))
    (x : BusAddr) : s.readAnswer x = readResult a := by
  simp [State.readAnswer, h, Env.answerRead, nextAnswer]

theorem State.afterWrite_env_script {s : State} {a : Answer} {l : List Answer} (h : s.env = .script (a :: l))
    (x : BusAddr) (b : Byte) (stop : Bool) : (s.afterWrite x b stop).env = .script l := by
  simp [h, Env.answerWrite]

theorem State.afterRead_env_script {s : State} {a : Answer} {l : List Answer} (h : s.env = .script (a :: l))
    (x : BusAddr) : (s.afterRead x).env = .script l := by
  simp [h, Env.answerRead]

/-! ### Traces -/

/-- CURPORT after the primitives `evs`, when it was `c` before: what the last completed selection among them tells (R24). -/
def portAfter (c : Option Port) (evs : List Event) : Option Port := ((evs.filterMap Event.routing).getLast?).getD c

@[simp] theorem portAfter_nil (c : Option Port) : portAfter c [] = c := rfl

theorem portAfter_append (c : Option Port) (d e : List Event) :
    portAfter c (d ++ e) = portAfter (portAfter c d) e := by
  unfold portAfter
  rw [List.filterMap_append, List.getLast?_append]
  cases (e.filterMap Event.routing).getLast? <;> simp

theorem lastSelected_append (d e : List Event) : lastSelected (d ++ e) = portAfter (lastSelected d) e :=
  portAfter_append none d e

/-- The control byte of a port names that port. -/
theorem mask_find (p : Port) : (allPorts.find? fun q => mask q == mask p) = some p := by
  revert p; decide

/-- From `s` to `t` the block did exactly the bus primitives `evs`, and outside WIN, WSLOT, WFULL and the environment changed
nothing but H, CURPORT and the flags as these primitives tell. -/
structure Trace (s t : State) (evs : List Event) : Prop where
  hist      : t.hist = s.hist ++ evs
  curport   : t.curport = portAfter s.curport evs
  draws     : t.draws = s.draws + evs.length
  berr      : t.berr = (s.berr || evs.any Event.failed)
  lberr     : t.lberr = (s.lberr || evs.any Event.failed)
  stuck     : t.stuck = (s.stuck || evs.any Event.stalled)
  fromBlock : ∀ e ∈ evs, e.fromBlock s.cfg
  out       : t.out = s.out
  rdata     : t.rdata = s.rdata
  lref      : t.lref = s.lref
  cfg       : t.cfg = s.cfg
  host      : t.host = s.host
  responses : t.responses = s.responses
  regReads  : t.regReads = s.regReads

theorem Trace.refl (s : State) : Trace s s [] := by constructor <;> simp

theorem Trace.trans {s t u : State} {d e : List Event} (h : Trace s t d) (g : Trace t u e) : Trace s u (d ++ e) where
  hist := by simp [g.hist, h.hist]
  curport := by rw [portAfter_append, ← h.curport, g.curport]
  draws := by simp [g.draws, h.draws, Nat.add_assoc]
  berr := by simp [g.berr, h.berr, Bool.or_assoc]
  lberr := by simp [g.lberr, h.lberr, Bool.or_assoc]
  stuck := by simp [g.stuck, h.stuck, Bool.or_assoc]
  fromBlock := by
    intro x hx
    rcases List.mem_append.1 hx with hx | hx
    · exact h.fromBlock x hx
    · have := g.fromBlock x hx; rwa [h.cfg] at this
  out := g.out.trans h.out
  rdata := g.rdata.trans h.rdata
  lref := g.lref.trans h.lref
  cfg := g.cfg.trans h.cfg
  host := g.host.trans h.host
  responses := g.responses.trans h.responses
  regReads := g.regReads.trans h.regReads

theorem Trace.setSample {s t : State} {e : List Event} (h : Trace s t e) (x : Sensor) (k : Slot) (v : Vector3i8) :
    Trace s (t.setSample x k v) e := by constructor <;> first | exact h.fromBlock | simp [h.hist, h.curport, h.draws, h.berr, h.lberr, h.stuck, h.out, h.rdata, h.lref, h.cfg, h.host, h.responses, h.regReads]

theorem Trace.setCursor {s t : State} {e : List Event} (h : Trace s t e) (k : Slot) (f : Bool) :
    Trace s (t.setCursor k f) e := by constructor <;> first | exact h.fromBlock | simp [h.hist, h.curport, h.draws, h.berr, h.lberr, h.stuck, h.out, h.rdata, h.lref, h.cfg, h.host, h.responses, h.regReads]

/-- A procedure run from `s` leaves a trace; it hangs exactly when a primitive stalls, which is then its last. -/
structure FlowTrace {α : Type} (s : State) (x : Flow α) (evs : List Event) : Prop where
  trace   : Trace s x.state evs
  stalled : evs.any Event.stalled = x.isHung
  last    : ∀ e ∈ evs.dropLast, e.stalled = false

theorem FlowTrace.done {α : Type} {s t : State} {e : List Event} (a : α) (h : Trace s t e)
    (hs : e.any Event.stalled = false) : FlowTrace s (Flow.done a t) e :=
  ⟨h, hs, fun x hx => by simpa using List.any_eq_false.1 hs x (List.dropLast_subset e hx)⟩

/-- A trace of one primitive. -/
theorem FlowTrace.single {α : Type} {s : State} {x : Flow α} {e : Event} (h : Trace s x.state [e])
    (hs : e.stalled = x.isHung) : FlowTrace s x [e] :=
  ⟨h, by simpa using hs, by simp⟩

/-- Something done before, with no stall, and then a procedure. -/
theorem FlowTrace.after {β : Type} {s t : State} {d e : List Event} {y : Flow β} (h : Trace s t d)
    (hd : d.any Event.stalled = false) (g : FlowTrace t y e) : FlowTrace s y (d ++ e) := by
  refine ⟨h.trans g.trace, by rw [List.any_append, hd, g.stalled]; rfl, fun x hx => ?_⟩
  have hd' : ∀ x ∈ d, x.stalled = false := fun x hx => by simpa using List.any_eq_false.1 hd x hx
  by_cases he : e = []
  · subst he
    exact hd' x (List.dropLast_subset d (by simpa using hx))
  · rw [List.dropLast_append_of_ne_nil he] at hx
    rcases List.mem_append.1 hx with hx | hx
    · exact hd' x hx
    · exact g.last x hx

/-- Traces of procedures one after another. -/
theorem FlowTrace.bind {α β : Type} {s : State} {x : Flow α} {f : α → State → Flow β} {d : List Event}
    (h : FlowTrace s x d) (hf : ∀ a t, x = .done a t → ∃ e, FlowTrace t (f a t) e) :
    ∃ e, FlowTrace s (x.bind f) (d ++ e) := by
  cases x with
  | hung t => exact ⟨[], by rw [List.append_nil]; exact ⟨h.trace, h.stalled, h.last⟩⟩
  | done a t =>
    obtain ⟨e, he⟩ := hf a t rfl
    exact ⟨e, FlowTrace.after h.trace h.stalled he⟩

/-! ### Select and ReadReg -/

/-- `Select(p)` performs one primitive, the selection of `p`, whatever it ends with. -/
theorem select_trace (p : Port) (s : State) :
    FlowTrace s (select p s) [.write s.cfg.muxAddr (mask p) true (s.writeAnswer s.cfg.muxAddr (mask p) true)] := by
  unfold select
  cases h : s.writeAnswer s.cfg.muxAddr (mask p) true <;>
    refine FlowTrace.single ?_ (by simp [Event.stalled]) <;> constructor <;>
      simp [h, Event.failed, Event.stalled, Event.fromBlock, portAfter, Event.routing, mask_find]

theorem readPhase_trace (s : State) :
    FlowTrace s (readPhase s) [.read s.cfg.accAddr (s.readAnswer s.cfg.accAddr)] := by
  unfold readPhase
  cases h : s.readAnswer s.cfg.accAddr <;>
    refine FlowTrace.single ?_ (by simp [Event.stalled]) <;> constructor <;>
      simp [h, Event.failed, Event.stalled, Event.fromBlock, portAfter, Event.routing]

theorem registerPhases_trace (r : Byte) (s : State) :
    ∃ e, FlowTrace s (registerPhases r s) (.write s.cfg.accAddr r false (s.writeAnswer s.cfg.accAddr r false) :: e) := by
  have first : s.writeAnswer s.cfg.accAddr r false ≠ .stall → s.writeAnswer s.cfg.accAddr r false ≠ .nack →
      Trace s (s.afterWrite s.cfg.accAddr r false) [.write s.cfg.accAddr r false .ack] := by
    intro h1 h2
    have h : s.writeAnswer s.cfg.accAddr r false = .ack := by
      cases h : s.writeAnswer s.cfg.accAddr r false <;> simp_all
    constructor <;> simp [h, Event.failed, Event.stalled, Event.fromBlock, portAfter, Event.routing]
  cases h : s.writeAnswer s.cfg.accAddr r false with
  | ack =>
    have hr : registerPhases r s = readPhase (s.afterWrite s.cfg.accAddr r false) := by simp [registerPhases, h]
    rw [hr]
    exact ⟨_, FlowTrace.after (first (by simp [h]) (by simp [h])) rfl
      (readPhase_trace (s.afterWrite s.cfg.accAddr r false))⟩
  | nack =>
    refine ⟨[], ?_⟩
    simp only [registerPhases, h]
    refine FlowTrace.single ?_ (by simp [Event.stalled])
    constructor <;> simp [h, Event.failed, Event.stalled, Event.fromBlock, portAfter, Event.routing]
  | stall =>
    refine ⟨[], ?_⟩
    simp only [registerPhases, h]
    refine FlowTrace.single ?_ (by simp [Event.stalled])
    constructor <;> simp [h, Event.failed, Event.stalled, Event.fromBlock, portAfter, Event.routing]

theorem readReg_trace (p : Port) (r : Byte) (s : State) : ∃ e, FlowTrace s (readReg p r s) e := by
  unfold readReg
  have tail : ∀ (b : Bool) (t : State),
      ∃ e, FlowTrace t (if b then registerPhases r t else Flow.done Config.sentinel t) e := by
    intro b t
    cases b
    · exact ⟨[], by simpa using FlowTrace.done Config.sentinel (Trace.refl t) rfl⟩
    · obtain ⟨e, he⟩ := registerPhases_trace r t
      exact ⟨_, by simpa using he⟩
  by_cases h : s.curport = some p
  · obtain ⟨e, he⟩ := tail true s
    exact ⟨e, by simpa [ensurePort, h] using he⟩
  · obtain ⟨e, he⟩ := (select_trace p s).bind (f := fun b t =>
      if b then registerPhases r t else Flow.done Config.sentinel t) fun b t _ => tail b t
    exact ⟨_, by simpa [ensurePort, h] using he⟩

/-- `ReadReg` leaves WIN, WSLOT and WFULL alone. -/
structure SameWindow (s t : State) : Prop where
  wslot      : t.wslot = s.wslot
  wfull      : t.wfull = s.wfull
  win        : t.win = s.win
  winWritten : t.winWritten = s.winWritten

theorem SameWindow.refl (s : State) : SameWindow s s := ⟨rfl, rfl, rfl, rfl⟩

theorem SameWindow.trans {s t u : State} (h : SameWindow s t) (g : SameWindow t u) : SameWindow s u :=
  ⟨g.wslot.trans h.wslot, g.wfull.trans h.wfull, g.win.trans h.win, g.winWritten.trans h.winWritten⟩

theorem select_sameWindow (p : Port) (s : State) : SameWindow s (select p s).state := by
  unfold select; cases h : s.writeAnswer s.cfg.muxAddr (mask p) true <;> constructor <;> simp

theorem registerPhases_sameWindow (r : Byte) (s : State) : SameWindow s (registerPhases r s).state := by
  unfold registerPhases
  cases h : s.writeAnswer s.cfg.accAddr r false with
  | ack =>
    simp only [readPhase]
    cases h2 : (s.afterWrite s.cfg.accAddr r false).readAnswer (s.afterWrite s.cfg.accAddr r false).cfg.accAddr <;>
      constructor <;> simp
  | nack => constructor <;> simp
  | stall => constructor <;> simp

theorem readReg_sameWindow (p : Port) (r : Byte) (s : State) : SameWindow s (readReg p r s).state := by
  unfold readReg ensurePort
  by_cases h : s.curport = some p
  · simpa [h] using registerPhases_sameWindow r s
  · simp only [h, if_false]
    have hs := select_sameWindow p s
    cases hx : select p s with
    | hung t => simpa [hx] using hs
    | done b t =>
      rw [hx] at hs
      cases b
      · simpa using hs
      · simpa using hs.trans (registerPhases_sameWindow r t)

/-! ### Rounds -/

theorem acqSensor_trace (k : Slot) (x : Sensor) (s : State) : ∃ e, FlowTrace s (acqSensor k x s) e := by
  unfold acqSensor
  obtain ⟨d, hd⟩ := readReg_trace (portMap x) Config.regX s
  obtain ⟨e, he⟩ := hd.bind (f := fun bx s1 =>
    (readReg (portMap x) Config.regY s1).bind fun byy s2 =>
    (readReg (portMap x) Config.regZ s2).bind fun bz s3 =>
    .done () (s3.setSample x k ⟨decodeAxis bx, decodeAxis byy, decodeAxis bz⟩)) fun bx s1 _ => by
      obtain ⟨d, hd⟩ := readReg_trace (portMap x) Config.regY s1
      obtain ⟨e, he⟩ := hd.bind (f := fun byy s2 =>
        (readReg (portMap x) Config.regZ s2).bind fun bz s3 =>
        .done () (s3.setSample x k ⟨decodeAxis bx, decodeAxis byy, decodeAxis bz⟩)) fun byy s2 _ => by
          obtain ⟨d, hd⟩ := readReg_trace (portMap x) Config.regZ s2
          obtain ⟨e, he⟩ := hd.bind (f := fun bz s3 =>
            .done () (s3.setSample x k ⟨decodeAxis bx, decodeAxis byy, decodeAxis bz⟩)) fun bz s3 _ =>
              ⟨[], FlowTrace.done () ((Trace.refl s3).setSample _ _ _) rfl⟩
          exact ⟨_, he⟩
      exact ⟨_, he⟩
  exact ⟨_, he⟩

theorem acqSensors_trace (k : Slot) (l : List Sensor) (s : State) : ∃ e, FlowTrace s (acqSensors k l s) e := by
  induction l generalizing s with
  | nil => exact ⟨[], FlowTrace.done () (Trace.refl s) rfl⟩
  | cons x l ih =>
    obtain ⟨d, hd⟩ := acqSensor_trace k x s
    obtain ⟨e, he⟩ := hd.bind (f := fun _ t => acqSensors k l t) fun _ t _ => ih t
    exact ⟨_, he⟩

theorem Trace.beginRound (s : State) : Trace s (beginRound s) [] := by
  unfold Machine.beginRound
  split
  · exact (Trace.refl s).setCursor _ _
  · exact Trace.refl s

theorem Trace.endRound {s t : State} {e : List Event} (h : Trace s t e) (k : Slot) : Trace s (endRound k t) e := by
  unfold Machine.endRound
  split <;> exact h.setCursor _ _

theorem acqRound_trace (s : State) : ∃ e, FlowTrace s (acqRound s) e := by
  unfold acqRound
  obtain ⟨d, hd⟩ := acqSensors_trace s.wslot allSensors (beginRound s)
  have hd' : FlowTrace s (acqSensors s.wslot allSensors (beginRound s)) d :=
    ⟨by simpa using (Trace.beginRound s).trans hd.trace, hd.stalled, hd.last⟩
  obtain ⟨e, he⟩ := hd'.bind (f := fun _ t => .done () (endRound s.wslot t)) fun _ t _ =>
    ⟨[], FlowTrace.done () ((Trace.refl t).endRound _) rfl⟩
  exact ⟨_, he⟩

theorem acqRounds_trace (n : Nat) (s : State) : ∃ e, FlowTrace s (acqRounds n s) e := by
  induction n generalizing s with
  | zero => exact ⟨[], FlowTrace.done () (Trace.refl s) rfl⟩
  | succ n ih =>
    obtain ⟨d, hd⟩ := acqRound_trace s
    obtain ⟨e, he⟩ := hd.bind (f := fun _ t => acqRounds n t) fun _ t _ => ih t
    exact ⟨_, he⟩

end Sys2Proof.Machine
end

