-- ==== Sys2Proof/Laws/Rounds.lean ====
section
/-! SUPPORT. What a round does to the sample window: only its own slot, and that slot of every sensor when it completes. -/

namespace Sys2Proof.Machine

/-- From `s` to `t` at most slot `k` of WIN changed, and nothing written became unwritten. -/
structure SlotOnly (k : Slot) (s t : State) : Prop where
  wslot : t.wslot = s.wslot
  wfull : t.wfull = s.wfull
  other : ∀ (x : Sensor) (j : Slot), j ≠ k → Grid.get t.win x j = Grid.get s.win x j
  keeps : ∀ (x : Sensor) (j : Slot), Grid.get s.winWritten x j = true → Grid.get t.winWritten x j = true

theorem SameWindow.slotOnly {s t : State} (h : SameWindow s t) (k : Slot) : SlotOnly k s t :=
  ⟨h.wslot, h.wfull, fun _ _ _ => by rw [h.win], fun _ _ hw => by rw [h.winWritten]; exact hw⟩

theorem SlotOnly.refl (k : Slot) (s : State) : SlotOnly k s s := (SameWindow.refl s).slotOnly k

theorem SlotOnly.trans {k : Slot} {s t u : State} (h : SlotOnly k s t) (g : SlotOnly k t u) : SlotOnly k s u :=
  ⟨g.wslot.trans h.wslot, g.wfull.trans h.wfull, fun x j hj => (g.other x j hj).trans (h.other x j hj),
    fun x j hw => g.keeps x j (h.keeps x j hw)⟩

theorem State.setSample_slotOnly (s : State) (x : Sensor) (k : Slot) (v : Vector3i8) :
    SlotOnly k s (s.setSample x k v) := by
  refine ⟨rfl, rfl, fun y j hj => ?_, fun y j hw => ?_⟩
  · simp [Grid.get_set, Ne.symm hj]
  · by_cases h : x = y ∧ k = j <;> simp [Grid.get_set, h, hw]

/-- One sensor's part of a round that completes: its three reads, in order, and the sample stored. -/
theorem acqSensor_done {k : Slot} {x : Sensor} {s t : State} {u : Unit} (h : acqSensor k x s = .done u t) :
    ∃ bx byy bz s1 s2 s3, readReg (portMap x) Config.regX s = .done bx s1 ∧
      readReg (portMap x) Config.regY s1 = .done byy s2 ∧ readReg (portMap x) Config.regZ s2 = .done bz s3 ∧
      t = s3.setSample x k ⟨decodeAxis bx, decodeAxis byy, decodeAxis bz⟩ := by
  unfold acqSensor at h
  cases h1 : readReg (portMap x) Config.regX s with
  | hung s1 => simp [h1] at h
  | done bx s1 =>
    simp only [h1, Flow.bind_done] at h
    cases h2 : readReg (portMap x) Config.regY s1 with
    | hung s2 => simp [h2] at h
    | done byy s2 =>
      simp only [h2, Flow.bind_done] at h
      cases h3 : readReg (portMap x) Config.regZ s2 with
      | hung s3 => simp [h3] at h
      | done bz s3 =>
        simp only [h3, Flow.bind_done, Flow.done.injEq] at h
        exact ⟨bx, byy, bz, s1, s2, s3, rfl, h2, h3, h.2.symm⟩

theorem readReg_done_sameWindow {p : Port} {r b : Byte} {s t : State} (h : readReg p r s = .done b t) :
    SameWindow s t := by have := readReg_sameWindow p r s; rwa [h] at this

theorem readReg_hung_sameWindow {p : Port} {r : Byte} {s t : State} (h : readReg p r s = .hung t) :
    SameWindow s t := by have := readReg_sameWindow p r s; rwa [h] at this

theorem acqSensor_slotOnly (k : Slot) (x : Sensor) (s : State) : SlotOnly k s (acqSensor k x s).state := by
  unfold acqSensor
  cases h1 : readReg (portMap x) Config.regX s with
  | hung s1 => exact (readReg_hung_sameWindow h1).slotOnly k
  | done bx s1 =>
    refine ((readReg_done_sameWindow h1).slotOnly k).trans ?_
    simp only [Flow.bind_done]
    cases h2 : readReg (portMap x) Config.regY s1 with
    | hung s2 => exact (readReg_hung_sameWindow h2).slotOnly k
    | done byy s2 =>
      refine ((readReg_done_sameWindow h2).slotOnly k).trans ?_
      simp only [Flow.bind_done]
      cases h3 : readReg (portMap x) Config.regZ s2 with
      | hung s3 => exact (readReg_hung_sameWindow h3).slotOnly k
      | done bz s3 => exact ((readReg_done_sameWindow h3).slotOnly k).trans (State.setSample_slotOnly _ _ _ _)

theorem acqSensor_writes {k : Slot} {x : Sensor} {s t : State} {u : Unit} (h : acqSensor k x s = .done u t) :
    Grid.get t.winWritten x k = true := by
  obtain ⟨_, _, _, _, _, _, _, _, _, rfl⟩ := acqSensor_done h
  simp

theorem acqSensors_slotOnly (k : Slot) (l : List Sensor) (s : State) : SlotOnly k s (acqSensors k l s).state := by
  induction l generalizing s with
  | nil => exact SlotOnly.refl k s
  | cons x l ih =>
    have hx := acqSensor_slotOnly k x s
    unfold acqSensors
    cases h : acqSensor k x s with
    | hung t => rw [h] at hx; exact hx
    | done u t => rw [h] at hx; exact hx.trans (ih t)

/-- When a round's sensors are all done, each of them has been written. -/
theorem acqSensors_writes {k : Slot} {l : List Sensor} {s t : State} {u : Unit} (h : acqSensors k l s = .done u t) :
    ∀ x ∈ l, Grid.get t.winWritten x k = true := by
  induction l generalizing s with
  | nil => simp
  | cons x l ih =>
    unfold acqSensors at h
    cases h1 : acqSensor k x s with
    | hung t' => simp [h1] at h
    | done u t' =>
      simp only [h1, Flow.bind_done] at h
      intro y hy
      rcases List.mem_cons.1 hy with rfl | hy
      · have hs := acqSensors_slotOnly k l t'
        rw [h] at hs
        exact hs.keeps y k (acqSensor_writes h1)
      · exact ih h y hy

theorem mem_allSensors (x : Sensor) : x ∈ allSensors := by revert x; decide

@[simp] theorem beginRound_wslot (s : State) : (beginRound s).wslot = s.wslot := by
  unfold beginRound; split <;> rfl

@[simp] theorem beginRound_wfull (s : State) : (beginRound s).wfull = if s.wslot = 0 then false else s.wfull := by
  unfold beginRound; split <;> rfl

@[simp] theorem beginRound_win (s : State) : (beginRound s).win = s.win := by unfold beginRound; split <;> rfl

@[simp] theorem beginRound_winWritten (s : State) : (beginRound s).winWritten = s.winWritten := by
  unfold beginRound; split <;> rfl

@[simp] theorem endRound_wslot (k : Slot) (s : State) : (endRound k s).wslot = if k = 4 then 0 else k + 1 := by
  unfold endRound; split <;> rfl

@[simp] theorem endRound_wfull (k : Slot) (s : State) : (endRound k s).wfull = if k = 4 then true else s.wfull := by
  unfold endRound; split <;> rfl

@[simp] theorem endRound_win (k : Slot) (s : State) : (endRound k s).win = s.win := by unfold endRound; split <;> rfl

@[simp] theorem endRound_winWritten (k : Slot) (s : State) : (endRound k s).winWritten = s.winWritten := by
  unfold endRound; split <;> rfl

/-- Everything a round that completes does to the window, the cursor and WFULL (R142). -/
structure RoundDone (s t : State) : Prop where
  wslot  : t.wslot = if s.wslot = 4 then 0 else s.wslot + 1
  wfull  : t.wfull = if s.wslot = 4 then true else if s.wslot = 0 then false else s.wfull
  other  : ∀ (x : Sensor) (j : Slot), j ≠ s.wslot → Grid.get t.win x j = Grid.get s.win x j
  keeps  : ∀ (x : Sensor) (j : Slot), Grid.get s.winWritten x j = true → Grid.get t.winWritten x j = true
  writes : ∀ x : Sensor, Grid.get t.winWritten x s.wslot = true

theorem acqRound_done {s t : State} {u : Unit} (h : acqRound s = .done u t) : RoundDone s t := by
  unfold acqRound at h
  have hs := acqSensors_slotOnly s.wslot allSensors (beginRound s)
  cases h1 : acqSensors s.wslot allSensors (beginRound s) with
  | hung t' => simp [h1] at h
  | done u' t' =>
    rw [h1] at hs
    simp only [h1, Flow.bind_done, Flow.done.injEq] at h
    obtain ⟨-, rfl⟩ := h
    refine ⟨by simp, ?_, fun x j hj => ?_, fun x j hw => ?_, fun x => ?_⟩
    · have := hs.wfull
      simp at this
      simp [this]
    · have := hs.other x j hj
      simpa using this
    · have := hs.keeps x j (by simpa using hw)
      simpa using this
    · have := acqSensors_writes h1 x (mem_allSensors x)
      simpa using this

/-- A round that hangs has cleared WFULL if it was to write slot 0, and has changed at most its own slot (R142). -/
theorem acqRound_hung {s t : State} (h : acqRound s = .hung t) : SlotOnly s.wslot (beginRound s) t := by
  unfold acqRound at h
  have hs := acqSensors_slotOnly s.wslot allSensors (beginRound s)
  cases h1 : acqSensors s.wslot allSensors (beginRound s) with
  | hung t' =>
    rw [h1] at hs
    simp only [h1, Flow.bind_hung, Flow.hung.injEq] at h
    subst h
    exact hs
  | done u' t' => simp [h1] at h

end Sys2Proof.Machine
end

