-- ==== Sys2Proof/Laws/Exec.lean ====
section
/-! SUPPORT. What executing a command can do, said once per wrapper and per body: the laws a proof about `exec` or `step` cites instead of unfolding them. -/

namespace Sys2Proof.Machine

/-! ### The wrapper -/

/-- An accepted command gives a next state exactly when the block is not stuck, the one its body leads to. -/
theorem execute_next {body : State → Flow Byte} {s t : State} :
    execute body s = .next t ↔ s.stuck = false ∧ t = finishCommand (body s.acceptFlags) := by
  unfold execute
  cases s.stuck <;> simp [eq_comm]

theorem executeRefused_next {s t : State} : executeRefused s = .next t ↔ s.stuck = false ∧ t = refuse s := by
  unfold executeRefused
  cases s.stuck <;> simp [eq_comm]

theorem exec_idle {i : Instr} {s t : State} (h : exec i s = .next t) : s.stuck = false := by
  cases i with
  | filt x =>
    simp only [exec, execFilt] at h
    split at h
    · exact (execute_next.1 h).1
    · exact (executeRefused_next.1 h).1
  | selport p => exact (execute_next.1 h).1
  | rdreg p r => exact (execute_next.1 h).1
  | acq => exact (execute_next.1 h).1
  | run => exact (execute_next.1 h).1

/-! ### The filter phase -/

/-- `FiltSensor(x)` changes OUT only. -/
theorem filtSensor_eq (x : Sensor) (s : State) : filtSensor x s = { s with out := (filtSensor x s).out } := by
  simp only [filtSensor, State.setOut]

theorem filtSensors_eq (l : List Sensor) (s : State) : filtSensors l s = { s with out := (filtSensors l s).out } := by
  induction l generalizing s with
  | nil => rfl
  | cons x l ih =>
    have h := ih (filtSensor x s)
    generalize (filtSensors l (filtSensor x s)).out = o at h
    rw [filtSensors, h, filtSensor_eq]

/-- Offsets of result bytes are different for different sensors or axes. -/
theorem outOffset_inj (c : Params) {x y : Sensor} {i j : Nat} (hi : i < c.accPackSize) (hj : j < c.accPackSize)
    (h : outOffset c x i = outOffset c y j) : x = y ∧ i = j := by
  unfold outOffset at h
  have hpos : 0 < c.accPackSize := by unfold Params.accPackSize; omega
  have hd : x.toNat = y.toNat := by
    have h1 := congrArg (· / c.accPackSize) h
    simpa [Nat.add_comm, Nat.add_mul_div_right _ _ hpos, Nat.div_eq_of_lt hi, Nat.div_eq_of_lt hj] using h1
  exact ⟨BitVec.eq_of_toNat_eq hd, by rw [hd] at h; omega⟩

theorem three_le_accPackSize (c : Params) : 3 ≤ c.accPackSize := by unfold Params.accPackSize; omega

theorem outOffset_lt (c : Params) (x : Sensor) {j : Nat} (hj : j < c.accPackSize) : outOffset c x j < c.sockPackSize := by
  unfold outOffset Params.sockPackSize
  have hx : x.toNat ≤ 3 := by have := x.isLt; omega
  calc x.toNat * c.accPackSize + j < x.toNat * c.accPackSize + c.accPackSize := by omega
    _ = (x.toNat + 1) * c.accPackSize := by ring
    _ ≤ 4 * c.accPackSize := Nat.mul_le_mul_right _ (by omega)
    _ = c.accPackSize * 4 := Nat.mul_comm _ _

/-- The three filtered bytes of a sensor, by axis number. -/
def laneByte (w : Grid Vector3i8) (x : Sensor) : Nat → Byte
  | 0 => filterLane w x Vector3i8.x
  | 1 => filterLane w x Vector3i8.y
  | _ => filterLane w x Vector3i8.z

/-- OUT after `FiltSensor(x)`: the filtered bytes at the sensor's three offsets. -/
theorem filtSensor_read (x : Sensor) (s : State) {j : Nat} (hj : j < 3) :
    (filtSensor x s).out.read (outOffset s.cfg x j) = laneByte s.win x j := by
  have h3 := three_le_accPackSize s.cfg
  have hne : ∀ a b : Nat, a < 3 → b < 3 → a ≠ b → outOffset s.cfg x a ≠ outOffset s.cfg x b := fun a b ha hb hab h =>
    hab (outOffset_inj s.cfg (by omega) (by omega) h).2
  simp only [filtSensor, State.setOut_out, Memory.read_write]
  match j, hj with
  | 0, _ => simp [hne 2 0 (by omega) (by omega) (by omega), hne 1 0 (by omega) (by omega) (by omega), laneByte]
  | 1, _ => simp [hne 2 1 (by omega) (by omega) (by omega), laneByte]
  | 2, _ => simp [laneByte]

/-- OUT after `FiltSensor(x)`: everywhere else the old byte. -/
theorem filtSensor_read_other (x : Sensor) (s : State) {a : Nat} (h : ∀ j, j < 3 → a ≠ outOffset s.cfg x j) :
    (filtSensor x s).out.read a = s.out.read a := by
  simp only [filtSensor, State.setOut_out, Memory.read_write]
  rw [if_neg (h 2 (by omega)).symm, if_neg (h 1 (by omega)).symm, if_neg (h 0 (by omega)).symm]

@[simp] theorem filtSensor_curport (x : Sensor) (s : State) : (filtSensor x s).curport = s.curport := by
  simp only [filtSensor, State.setOut_curport]
@[simp] theorem filtSensor_wslot (x : Sensor) (s : State) : (filtSensor x s).wslot = s.wslot := by
  simp only [filtSensor, State.setOut_wslot]
@[simp] theorem filtSensor_wfull (x : Sensor) (s : State) : (filtSensor x s).wfull = s.wfull := by
  simp only [filtSensor, State.setOut_wfull]
@[simp] theorem filtSensor_win (x : Sensor) (s : State) : (filtSensor x s).win = s.win := by
  simp only [filtSensor, State.setOut_win]
@[simp] theorem filtSensor_rdata (x : Sensor) (s : State) : (filtSensor x s).rdata = s.rdata := by
  simp only [filtSensor, State.setOut_rdata]
@[simp] theorem filtSensor_berr (x : Sensor) (s : State) : (filtSensor x s).berr = s.berr := by
  simp only [filtSensor, State.setOut_berr]
@[simp] theorem filtSensor_lberr (x : Sensor) (s : State) : (filtSensor x s).lberr = s.lberr := by
  simp only [filtSensor, State.setOut_lberr]
@[simp] theorem filtSensor_lref (x : Sensor) (s : State) : (filtSensor x s).lref = s.lref := by
  simp only [filtSensor, State.setOut_lref]
@[simp] theorem filtSensor_stuck (x : Sensor) (s : State) : (filtSensor x s).stuck = s.stuck := by
  simp only [filtSensor, State.setOut_stuck]
@[simp] theorem filtSensor_hist (x : Sensor) (s : State) : (filtSensor x s).hist = s.hist := by
  simp only [filtSensor, State.setOut_hist]
@[simp] theorem filtSensor_cfg (x : Sensor) (s : State) : (filtSensor x s).cfg = s.cfg := by
  simp only [filtSensor, State.setOut_cfg]
@[simp] theorem filtSensor_env (x : Sensor) (s : State) : (filtSensor x s).env = s.env := by
  simp only [filtSensor, State.setOut_env]
@[simp] theorem filtSensor_draws (x : Sensor) (s : State) : (filtSensor x s).draws = s.draws := by
  simp only [filtSensor, State.setOut_draws]
@[simp] theorem filtSensor_winWritten (x : Sensor) (s : State) : (filtSensor x s).winWritten = s.winWritten := by
  simp only [filtSensor, State.setOut_winWritten]
@[simp] theorem filtSensor_host (x : Sensor) (s : State) : (filtSensor x s).host = s.host := by
  simp only [filtSensor, State.setOut_host]
@[simp] theorem filtSensor_responses (x : Sensor) (s : State) : (filtSensor x s).responses = s.responses := by
  simp only [filtSensor, State.setOut_responses]
@[simp] theorem filtSensor_regReads (x : Sensor) (s : State) : (filtSensor x s).regReads = s.regReads := by
  simp only [filtSensor, State.setOut_regReads]

@[simp] theorem filtSensors_curport (l : List Sensor) (s : State) : (filtSensors l s).curport = s.curport := by
  rw [filtSensors_eq]
@[simp] theorem filtSensors_wslot (l : List Sensor) (s : State) : (filtSensors l s).wslot = s.wslot := by
  rw [filtSensors_eq]
@[simp] theorem filtSensors_wfull (l : List Sensor) (s : State) : (filtSensors l s).wfull = s.wfull := by
  rw [filtSensors_eq]
@[simp] theorem filtSensors_win (l : List Sensor) (s : State) : (filtSensors l s).win = s.win := by
  rw [filtSensors_eq]
@[simp] theorem filtSensors_rdata (l : List Sensor) (s : State) : (filtSensors l s).rdata = s.rdata := by
  rw [filtSensors_eq]
@[simp] theorem filtSensors_berr (l : List Sensor) (s : State) : (filtSensors l s).berr = s.berr := by
  rw [filtSensors_eq]
@[simp] theorem filtSensors_lberr (l : List Sensor) (s : State) : (filtSensors l s).lberr = s.lberr := by
  rw [filtSensors_eq]
@[simp] theorem filtSensors_lref (l : List Sensor) (s : State) : (filtSensors l s).lref = s.lref := by
  rw [filtSensors_eq]
@[simp] theorem filtSensors_stuck (l : List Sensor) (s : State) : (filtSensors l s).stuck = s.stuck := by
  rw [filtSensors_eq]
@[simp] theorem filtSensors_hist (l : List Sensor) (s : State) : (filtSensors l s).hist = s.hist := by
  rw [filtSensors_eq]
@[simp] theorem filtSensors_cfg (l : List Sensor) (s : State) : (filtSensors l s).cfg = s.cfg := by
  rw [filtSensors_eq]
@[simp] theorem filtSensors_env (l : List Sensor) (s : State) : (filtSensors l s).env = s.env := by
  rw [filtSensors_eq]
@[simp] theorem filtSensors_draws (l : List Sensor) (s : State) : (filtSensors l s).draws = s.draws := by
  rw [filtSensors_eq]
@[simp] theorem filtSensors_winWritten (l : List Sensor) (s : State) : (filtSensors l s).winWritten = s.winWritten := by
  rw [filtSensors_eq]
@[simp] theorem filtSensors_host (l : List Sensor) (s : State) : (filtSensors l s).host = s.host := by
  rw [filtSensors_eq]
@[simp] theorem filtSensors_responses (l : List Sensor) (s : State) : (filtSensors l s).responses = s.responses := by
  rw [filtSensors_eq]
@[simp] theorem filtSensors_regReads (l : List Sensor) (s : State) : (filtSensors l s).regReads = s.regReads := by
  rw [filtSensors_eq]

/-- What the filter puts in OUT depends on WIN, OUT and the parameters alone. -/
theorem filtSensor_out_congr (x : Sensor) {s t : State} (hw : t.win = s.win) (ho : t.out = s.out) (hc : t.cfg = s.cfg) :
    (filtSensor x t).out = (filtSensor x s).out := by
  simp only [filtSensor, State.setOut, hw, ho, hc]

theorem filtSensors_out_congr (l : List Sensor) {s t : State} (hw : t.win = s.win) (ho : t.out = s.out)
    (hc : t.cfg = s.cfg) : (filtSensors l t).out = (filtSensors l s).out := by
  induction l generalizing s t with
  | nil => exact ho
  | cons x l ih => exact ih (by simp [hw]) (filtSensor_out_congr x hw ho hc) (by simp [hc])

/-- OUT after the filter of several sensors: the old byte outside their result bytes. -/
theorem filtSensors_read_other (l : List Sensor) (s : State) {a : Nat}
    (h : ∀ x ∈ l, ∀ j, j < 3 → a ≠ outOffset s.cfg x j) : (filtSensors l s).out.read a = s.out.read a := by
  induction l generalizing s with
  | nil => rfl
  | cons x l ih =>
    rw [filtSensors, ih (filtSensor x s) fun y hy j hj => h y (by simp [hy]) j hj]
    exact filtSensor_read_other x s fun j hj => h x (by simp) j hj

/-- OUT after the filter of several sensors: each one's filtered bytes. -/
theorem filtSensors_read (l : List Sensor) (s : State) {x : Sensor} (hx : x ∈ l) {j : Nat} (hj : j < 3) :
    (filtSensors l s).out.read (outOffset s.cfg x j) = laneByte s.win x j := by
  have h3 := three_le_accPackSize s.cfg
  induction l generalizing s with
  | nil => simp at hx
  | cons y l ih =>
    rw [filtSensors]
    by_cases hl : x ∈ l
    · exact ih (filtSensor y s) hl h3
    · have hxy : x = y := by rcases List.mem_cons.1 hx with h | h; exacts [h, absurd h hl]
      subst hxy
      have apart : ∀ z ∈ l, ∀ i, i < 3 → outOffset s.cfg x j ≠ outOffset s.cfg z i := fun z hz i hi he => by
        have hxz : x = z := (outOffset_inj s.cfg (by omega) (by omega) he).1
        exact hl (hxz ▸ hz)
      rw [filtSensors_read_other l (filtSensor x s) apart]
      exact filtSensor_read x s hj

/-! ### The trace of every command -/

/-- Whatever a command ends with, it has done exactly the bus primitives of a trace since its flags were cleared. -/
theorem acqBody_trace (s : State) : ∃ e, FlowTrace s (acqBody s) e := by
  obtain ⟨d, hd⟩ := acqRound_trace s
  obtain ⟨e, he⟩ := hd.bind (f := fun _ t => .done (0#8 : Byte) t) fun _ t _ =>
    ⟨[], FlowTrace.done _ (Trace.refl t) rfl⟩
  exact ⟨_, he⟩

theorem selportBody_trace (p : Port) (s : State) : ∃ e, FlowTrace s (selportBody p s) e := by
  obtain ⟨e, he⟩ := (select_trace p s).bind (f := fun _ t => .done (0#8 : Byte) t) fun _ t _ =>
    ⟨[], FlowTrace.done _ (Trace.refl t) rfl⟩
  exact ⟨_, he⟩

theorem Trace.setCursorBefore {s t : State} {e : List Event} {k : Slot} {f : Bool}
    (h : Trace (s.setCursor k f) t e) : Trace s t e := by
  constructor <;> first | exact h.fromBlock | simpa using h.hist | simpa using h.curport | simpa using h.draws | simpa using h.berr | simpa using h.lberr | simpa using h.stuck | simpa using h.out | simpa using h.rdata | simpa using h.lref | simpa using h.cfg | simpa using h.host | simpa using h.responses | simpa using h.regReads

/-- The rounds of RUN. -/
theorem runRounds_trace (s : State) : ∃ e, FlowTrace s (acqRounds Config.window (s.setCursor 0 false)) e := by
  obtain ⟨e, he⟩ := acqRounds_trace Config.window (s.setCursor 0 false)
  exact ⟨e, he.trace.setCursorBefore, he.stalled, he.last⟩

/-- What a command's bus activity leaves, whichever command it is: like `Trace`, but for OUT, RDATA and LREF, and with the
flags counted from the start of the command. -/
structure CommandTrace (s t : State) (evs : List Event) : Prop where
  hist      : t.hist = s.hist ++ evs
  curport   : t.curport = portAfter s.curport evs
  draws     : t.draws = s.draws + evs.length
  berr      : t.berr = (s.berr || evs.any Event.failed)
  lberr     : t.lberr = evs.any Event.failed
  stuck     : t.stuck = evs.any Event.stalled
  last      : ∀ e ∈ evs.dropLast, e.stalled = false
  fromBlock : ∀ e ∈ evs, e.fromBlock s.cfg
  cfg       : t.cfg = s.cfg
  host      : t.host = s.host
  regReads  : t.regReads = s.regReads

/-- From the trace of a body to that of its command. -/
theorem Trace.command {s t u : State} {e : List Event} (h : Trace s.acceptFlags t e) (hs : s.stuck = false)
    (hl : ∀ x ∈ e.dropLast, x.stalled = false)
    (hu : u = { t with out := u.out, rdata := u.rdata, responses := u.responses }) : CommandTrace s u e := by
  rw [hu]
  exact ⟨by simpa using h.hist, by simpa using h.curport, by simpa using h.draws, by simpa using h.berr,
    by simpa using h.lberr, by simpa [hs] using h.stuck, hl, by simpa using h.fromBlock, by simpa using h.cfg,
    by simpa using h.host, by simpa using h.regReads⟩

/-- Every command that gives a next state leaves a trace of bus primitives (none for FILT and for a refusal). -/
theorem exec_trace {i : Instr} {s t : State} (h : exec i s = .next t) : ∃ e, CommandTrace s t e := by
  have hs := exec_idle h
  have fin : ∀ {body : State → Flow Byte}, execute body s = .next t →
      (∃ e, FlowTrace s.acceptFlags (body s.acceptFlags) e) → ∃ e, CommandTrace s t e := by
    rintro body hb ⟨e, he⟩
    obtain ⟨-, rfl⟩ := execute_next.1 hb
    refine ⟨e, he.trace.command hs he.last ?_⟩
    cases body s.acceptFlags <;> rfl
  cases i with
  | selport p => exact fin h (selportBody_trace p _)
  | acq => exact fin h (acqBody_trace _)
  | rdreg p r =>
    obtain ⟨-, rfl⟩ := execute_next.1 h
    obtain ⟨e, he⟩ := readReg_trace p r s.acceptFlags
    refine ⟨e, he.trace.command hs he.last ?_⟩
    unfold rdregBody
    cases readReg p r s.acceptFlags <;> rfl
  | filt x =>
    refine ⟨[], ?_⟩
    simp only [exec, execFilt] at h
    split at h
    · obtain ⟨-, rfl⟩ := execute_next.1 h
      constructor <;> simp [filtBody, finishCommand, filtSensor, hs]
    · obtain ⟨-, rfl⟩ := executeRefused_next.1 h
      constructor <;> simp [refuse, hs]
  | run =>
    obtain ⟨-, rfl⟩ := execute_next.1 h
    obtain ⟨e, he⟩ := runRounds_trace s.acceptFlags
    refine ⟨e, he.trace.command hs he.last ?_⟩
    unfold runBody
    cases acqRounds Config.window (s.acceptFlags.setCursor 0 false) with
    | hung t => rfl
    | done u t => simp only [Flow.bind_done, finishCommand, Flow.state_done]; rw [filtSensors_eq]; rfl

/-! ### One step -/

/-- Everything a step can do. -/
theorem step_cases {s t : State} (h : step s = .next t) :
    (s.stuck = true ∧ s.host.any HostAction.isReset = true ∧
      t = { s with host := s.host.eraseP HostAction.isReset }.resetMidTransaction) ∨
    (s.stuck = false ∧ s.host = [] ∧ t = s) ∨
    (∃ w rest i, s.stuck = false ∧ s.host = .command w :: rest ∧ decode w = .command i ∧
      exec i { s with host := rest } = .next t) ∨
    (∃ w rest r, s.stuck = false ∧ s.host = .command w :: rest ∧ decode w = .refused r ∧
      t = refuse { s with host := rest }) ∨
    (∃ a rest, s.stuck = false ∧ s.host = a :: rest ∧ (∀ w, a ≠ .command w) ∧
      t = hostAct a { s with host := rest }) := by
  unfold step at h
  by_cases hs : s.stuck = true
  · left
    rw [if_pos hs, stuckStep] at h
    by_cases hr : s.host.any HostAction.isReset = true
    · rw [if_pos hr] at h
      exact ⟨hs, hr, (Host.Outcome.next.inj h).symm⟩
    · rw [if_neg hr] at h
      cases h
  · right
    rw [if_neg hs] at h
    have hf : s.stuck = false := by simpa using hs
    match hh : s.host with
    | [] =>
      rw [hh] at h
      exact Or.inl ⟨hf, rfl, (Host.Outcome.next.inj h).symm⟩
    | a :: rest =>
      rw [hh] at h
      right
      have other : (∀ w, a ≠ .command w) → t = hostAct a { s with host := rest } := by
        intro hw
        cases a with
        | command w => exact absurd rfl (hw w)
        | readReg b => exact (Host.Outcome.next.inj h).symm
        | reset => exact (Host.Outcome.next.inj h).symm
        | resetDuringCommand => exact (Host.Outcome.next.inj h).symm
        | busUse => exact (Host.Outcome.next.inj h).symm
        | rawRoute m => exact (Host.Outcome.next.inj h).symm
      by_cases hw : ∃ w, a = .command w
      · obtain ⟨w, rfl⟩ := hw
        simp only [runWord] at h
        cases hd : decode w with
        | command i =>
          rw [hd] at h
          exact Or.inl ⟨w, rest, i, hf, rfl, hd, h⟩
        | refused r =>
          rw [hd] at h
          exact Or.inr (Or.inl ⟨w, rest, r, hf, rfl, hd, (executeRefused_next.1 h).2⟩)
      · have hw' : ∀ w, a ≠ .command w := fun w e => hw ⟨w, e⟩
        exact Or.inr (Or.inr ⟨a, rest, hf, rfl, hw', other hw'⟩)

end Sys2Proof.Machine
end

