-- ==== Sys2Proof/Laws/Params.lean ====
section
/-! SUPPORT. The constraints of 00_scope R8 hold of every parameter record, and every choice that meets them is one. -/

namespace Sys2Proof

/-- 3 ≤ ACCPACKSIZE ≤ 60. -/
theorem Params.accPackSize_range (c : Params) : 3 ≤ c.accPackSize ∧ c.accPackSize ≤ 60 := by
  have := c.pad.isLt
  unfold Params.accPackSize
  omega

/-- OUT stays inside the register map: SOCKPACKSIZE ≤ 240. -/
theorem Params.sockPackSize_le (c : Params) : c.sockPackSize ≤ 240 := by
  have := c.accPackSize_range
  unfold Params.sockPackSize
  omega

/-- MUX_ADDR ≠ ACC_ADDR. -/
theorem Params.distinct (c : Params) : c.muxAddr ≠ c.accAddr := by
  intro h
  have e := congrArg BitVec.toNat h
  have hm := c.muxAddr.isLt
  have ha := c.accStep.isLt
  simp only [Params.accAddr, BitVec.toNat_add, BitVec.toNat_ofNat] at e
  omega

/-- Every ACCPACKSIZE from 3 to 60 and every two distinct addresses are the parameters of some machine. -/
theorem Params.ofAddresses (size : Nat) (mux acc : BusAddr) (h3 : 3 ≤ size) (h60 : size ≤ 60) (h : mux ≠ acc) :
    ∃ c : Params, c.accPackSize = size ∧ c.muxAddr = mux ∧ c.accAddr = acc := by
  have hm := mux.isLt
  have ha := acc.isLt
  have hne : mux.toNat ≠ acc.toNat := fun e => h (BitVec.eq_of_toNat_eq e)
  refine ⟨⟨⟨size - 3, by omega⟩, mux, ⟨(acc.toNat + 127 - mux.toNat) % 128, by omega⟩⟩, ?_, rfl, ?_⟩
  · simp only [Params.accPackSize]
    omega
  · apply BitVec.eq_of_toNat_eq
    simp only [Params.accAddr, BitVec.toNat_add, BitVec.toNat_ofNat]
    omega

end Sys2Proof
end

