-- ==== Sys2Proof/Laws/PerInstr.lean ====
section
/-! SUPPORT. Facts about a command as syntax: its operands lie in range, and its word lies in its own row of the opcode table (30_encoding R82, R83). -/

namespace Sys2Proof.Laws

/-- The operand types carry the ranges of R82 and R83, so every command is well formed. -/
theorem instr_wellFormed (i : Instr) : i.wellFormed = true := by
  cases i with
  | selport p => exact decide_eq_true p.isLt
  | rdreg p r =>
    have hp := p.isLt
    have hr := r.isLt
    simp [Instr.wellFormed, hp, hr]
  | acq => rfl
  | filt x => exact decide_eq_true x.isLt
  | run => rfl

/-- The fields of RDREG's word (R81, R82). -/
theorem encode_rdreg_op (p : Port) (r : Byte) : (encode (.rdreg p r)).op = 2#4 := by
  simp only [encode, fieldA, CommandWord.op]
  ext j hj
  obtain rfl | rfl | rfl | rfl : j = 0 ∨ j = 1 ∨ j = 2 ∨ j = 3 := by omega
  all_goals simp

theorem encode_rdreg_z (p : Port) (r : Byte) : (encode (.rdreg p r)).z = 0#1 := by
  simp only [encode, fieldA, CommandWord.z]
  ext j hj
  obtain rfl : j = 0 := by omega
  simp

theorem encode_rdreg_a (p : Port) (r : Byte) : (encode (.rdreg p r)).a = p := by
  simp only [encode, fieldA, CommandWord.a]
  ext j hj
  obtain rfl | rfl | rfl : j = 0 ∨ j = 1 ∨ j = 2 := by omega
  all_goals simp

theorem encode_rdreg_reg (p : Port) (r : Byte) : (encode (.rdreg p r)).reg = r := by
  simp only [encode, fieldA, CommandWord.reg]
  ext j hj
  obtain rfl | rfl | rfl | rfl | rfl | rfl | rfl | rfl :
      j = 0 ∨ j = 1 ∨ j = 2 ∨ j = 3 ∨ j = 4 ∨ j = 5 ∨ j = 6 ∨ j = 7 := by omega
  all_goals simp

/-- RDREG's row fixes the fields OP and bit 11, and no other bit (R82). -/
theorem rdregRow_selects (w : CommandWord) (ho : w.op = 2#4) (hz : w.z = 0#1) : w &&& 0xF800#16 = 0x2000#16 := by
  have bit (j : Nat) (hj : j < 4) : w.getLsbD (12 + j) = (2#4).getLsbD j := by
    rw [← ho, CommandWord.op, BitVec.getLsbD_extractLsb']; simp [hj]
  have b11 : w.getLsbD 11 = false := by
    have := congrArg (fun v => v.getLsbD 0) hz
    simpa [CommandWord.z, BitVec.getLsbD_extractLsb'] using this
  have b12 := bit 0 (by omega)
  have b13 := bit 1 (by omega)
  have b14 := bit 2 (by omega)
  have b15 := bit 3 (by omega)
  apply BitVec.eq_of_getLsbD_eq
  intro j hj
  rw [BitVec.getLsbD_and]
  obtain h | h | h | h | h | h : j < 11 ∨ j = 11 ∨ j = 12 ∨ j = 13 ∨ j = 14 ∨ j = 15 := by omega
  · have : (0xF800#16).getLsbD j = false ∧ (0x2000#16).getLsbD j = false := by revert j; decide
    rw [this.1, this.2, Bool.and_false]
  all_goals
    subst h
    first
      | rw [b11]; decide
      | rw [b12]; decide
      | rw [b13]; decide
      | rw [b14]; decide
      | rw [b15]; decide

namespace EncodesInRow

/-- The word of a command selects the command's own row of the table and passes every check on words (R82, R84). -/
def Statement (i : Instr) : Prop := i.row.selects (encode i) = true ∧ i.row ∈ opcodeTable ∧ WellFormed.word (encode i) = true

theorem selport (p : Port) : Statement (.selport p) := by
  unfold Statement
  revert p
  decide

theorem rdreg (p : Port) (r : Byte) : Statement (.rdreg p r) := by
  have ho := encode_rdreg_op p r
  have hz := encode_rdreg_z p r
  refine ⟨?_, by simp [opcodeTable, Instr.row], ?_⟩
  · simpa [OpcodeRow.selects, Instr.row] using rdregRow_selects _ ho hz
  · simp [WellFormed.word, WellFormed.opDefined, WellFormed.zClear, WellFormed.regInRange, WellFormed.aInRange, ho, hz]

theorem acq : Statement .acq := by
  unfold Statement
  decide

theorem filt (x : Sensor) : Statement (.filt x) := by
  unfold Statement
  revert x
  decide

theorem run : Statement .run := by
  unfold Statement
  decide

end EncodesInRow

end Sys2Proof.Laws
end

