-- ==== Sys2Proof/Laws/Related.lean ====
section
/-! SUPPORT. Two runs side by side: if two states agree on what the bus procedures read, so do the states after each procedure, and both runs end alike. -/

namespace Sys2Proof.Machine

/-- Two procedures end alike: both with the same value in states related by `D`, or both in a hang, related by `H`. -/
def FlowRel {α : Type} (D H : State → State → Prop) : Flow α → Flow α → Prop
  | .done a s, .done b t => a = b ∧ D s t
  | .hung s, .hung t => H s t
  | .done _ _, .hung _ => False
  | .hung _, .done _ _ => False

variable {D E H K : State → State → Prop}

theorem FlowRel.bind {α β : Type} {x y : Flow α} {f g : α → State → Flow β} (h : FlowRel D H x y)
    (hf : ∀ a s t, D s t → FlowRel E H (f a s) (g a t)) : FlowRel E H (x.bind f) (y.bind g) := by
  cases x <;> cases y
  · obtain ⟨rfl, h⟩ := h
    exact hf _ _ _ h
  · exact h.elim
  · exact h.elim
  · exact h

theorem FlowRel.mono {α : Type} {x y : Flow α} (h : FlowRel D H x y) (hd : ∀ s t, D s t → E s t)
    (hh : ∀ s t, H s t → K s t) : FlowRel E K x y := by
  cases x <;> cases y
  · exact ⟨h.1, hd _ _ h.2⟩
  · exact h.elim
  · exact h.elim
  · exact hh _ _ h

/-- What a relation must keep for the bus procedures to keep it: it fixes what they read (CURPORT, the parameters, the
environment and its next free answer), and every change they make respects it. -/
structure BusRel (R : State → State → Prop) : Prop where
  port : ∀ {s t}, R s t → t.curport = s.curport
  cfg : ∀ {s t}, R s t → t.cfg = s.cfg
  env : ∀ {s t}, R s t → t.env = s.env
  draws : ∀ {s t}, R s t → t.draws = s.draws
  logEvent : ∀ {s t} (e : Event) (v : Env), R s t → R (s.logEvent e v) (t.logEvent e v)
  setCurport : ∀ {s t} (c : Option Port), R s t → R (s.setCurport c) (t.setCurport c)
  raise : ∀ {s t}, R s t → R s.raiseBusError t.raiseBusError
  hang : ∀ {s t}, R s t → R s.hang t.hang

variable {R : State → State → Prop} {s t : State}

theorem BusRel.writeAnswer (hR : BusRel R) (h : R s t) (a : BusAddr) (b : Byte) (stop : Bool) :
    t.writeAnswer a b stop = s.writeAnswer a b stop := by
  simp only [State.writeAnswer, hR.env h, hR.cfg h, hR.draws h]

theorem BusRel.readAnswer (hR : BusRel R) (h : R s t) (a : BusAddr) : t.readAnswer a = s.readAnswer a := by
  simp only [State.readAnswer, hR.env h, hR.cfg h, hR.draws h]

theorem BusRel.afterWrite (hR : BusRel R) (h : R s t) (a : BusAddr) (b : Byte) (stop : Bool) :
    R (s.afterWrite a b stop) (t.afterWrite a b stop) := by
  simp only [State.afterWrite, hR.writeAnswer h, hR.env h, hR.cfg h, hR.draws h]
  exact hR.logEvent _ _ h

theorem BusRel.afterRead (hR : BusRel R) (h : R s t) (a : BusAddr) : R (s.afterRead a) (t.afterRead a) := by
  simp only [State.afterRead, hR.readAnswer h, hR.env h, hR.cfg h, hR.draws h]
  exact hR.logEvent _ _ h

theorem BusRel.select (hR : BusRel R) (h : R s t) (p : Port) : FlowRel R R (select p s) (select p t) := by
  simp only [Machine.select, hR.cfg h, hR.writeAnswer h]
  cases s.writeAnswer s.cfg.muxAddr (mask p) true
  · exact ⟨rfl, hR.setCurport _ (hR.afterWrite h _ _ _)⟩
  · exact ⟨rfl, hR.raise (hR.setCurport _ (hR.afterWrite h _ _ _))⟩
  · exact hR.hang (hR.afterWrite h _ _ _)

theorem BusRel.readPhase (hR : BusRel R) (h : R s t) : FlowRel R R (readPhase s) (readPhase t) := by
  simp only [Machine.readPhase, hR.cfg h, hR.readAnswer h]
  cases s.readAnswer s.cfg.accAddr
  · exact ⟨rfl, hR.afterRead h _⟩
  · exact ⟨rfl, hR.raise (hR.afterRead h _)⟩
  · exact hR.hang (hR.afterRead h _)

theorem BusRel.registerPhases (hR : BusRel R) (h : R s t) (r : Byte) :
    FlowRel R R (registerPhases r s) (registerPhases r t) := by
  simp only [Machine.registerPhases, hR.cfg h, hR.writeAnswer h]
  cases s.writeAnswer s.cfg.accAddr r false
  · exact hR.readPhase (hR.afterWrite h _ _ _)
  · exact ⟨rfl, hR.raise (hR.afterWrite h _ _ _)⟩
  · exact hR.hang (hR.afterWrite h _ _ _)

theorem BusRel.readReg (hR : BusRel R) (h : R s t) (p : Port) (r : Byte) :
    FlowRel R R (readReg p r s) (readReg p r t) := by
  have first : FlowRel R R (ensurePort p s) (ensurePort p t) := by
    simp only [ensurePort, hR.port h]
    split
    · exact ⟨rfl, h⟩
    · exact hR.select h p
  refine first.bind fun selected u v g => ?_
  cases selected
  · exact ⟨rfl, g⟩
  · exact hR.registerPhases g r

/-- One sensor of a round: the stored sample may bring the two states closer, from `R` to `D`. -/
theorem BusRel.acqSensor (hR : BusRel R) (h : R s t) (k : Slot) (x : Sensor)
    (store : ∀ u v w, R u v → D (u.setSample x k w) (v.setSample x k w)) :
    FlowRel D R (acqSensor k x s) (acqSensor k x t) :=
  (hR.readReg h _ _).bind fun _ _ _ h1 => (hR.readReg h1 _ _).bind fun _ _ _ h2 =>
    (hR.readReg h2 _ _).bind fun _ _ _ h3 => ⟨rfl, store _ _ _ h3⟩

/-- A whole list of sensors, when storing a sample keeps the relation. -/
theorem BusRel.acqSensors (hR : BusRel R) (k : Slot)
    (store : ∀ x u v w, R u v → R (u.setSample x k w) (v.setSample x k w)) :
    ∀ (l : List Sensor) {s t : State}, R s t → FlowRel R R (acqSensors k l s) (acqSensors k l t)
  | [], _, _, h => ⟨rfl, h⟩
  | x :: l, _, _, h => (hR.acqSensor h k x (store x)).bind fun _ _ _ g => hR.acqSensors k store l g

/-- What a relation must keep beyond `BusRel` for whole rounds to keep it. -/
structure RoundRel (R : State → State → Prop) : Prop extends BusRel R where
  wslot : ∀ {s t}, R s t → t.wslot = s.wslot
  wfull : ∀ {s t}, R s t → t.wfull = s.wfull
  setCursor : ∀ {s t} (k : Slot) (f : Bool), R s t → R (s.setCursor k f) (t.setCursor k f)
  setSample : ∀ {s t} (x : Sensor) (k : Slot) (v : Vector3i8), R s t → R (s.setSample x k v) (t.setSample x k v)

theorem RoundRel.beginRound (hR : RoundRel R) (h : R s t) : R (beginRound s) (beginRound t) := by
  simp only [Machine.beginRound, hR.wslot h]
  split
  · exact hR.setCursor _ _ h
  · exact h

theorem RoundRel.endRound (hR : RoundRel R) (h : R s t) (k : Slot) : R (endRound k s) (endRound k t) := by
  simp only [Machine.endRound, hR.wfull h]
  split <;> exact hR.setCursor _ _ h

theorem RoundRel.acqRound (hR : RoundRel R) (h : R s t) : FlowRel R R (acqRound s) (acqRound t) := by
  simp only [Machine.acqRound, hR.wslot h]
  exact (hR.toBusRel.acqSensors s.wslot (fun x _ _ w g => hR.setSample x _ w g) _ (hR.beginRound h)).bind
    fun _ _ _ g => ⟨rfl, hR.endRound g _⟩

theorem RoundRel.acqRounds (hR : RoundRel R) :
    ∀ (n : Nat) {s t : State}, R s t → FlowRel R R (acqRounds n s) (acqRounds n t)
  | 0, _, _, h => ⟨rfl, h⟩
  | n + 1, _, _, h => (hR.acqRound h).bind fun _ _ _ g => hR.acqRounds n g

end Sys2Proof.Machine
end

