-- ==== Sys2Proof/Laws/Script.lean ====
section
/-! SUPPORT. The bus procedures on scripts of answers: that they complete while the script does not stall, and what they do when no answer fails. -/

namespace Sys2Proof.Machine

/-! ### A script that does not stall -/

/-- The environment is a script that begins with at least `n` answers none of which stalls, and then goes on with `rest`. -/
def Lasts (rest : List Answer) (n : Nat) (s : State) : Prop :=
  ∃ l, s.env = .script (l ++ rest) ∧ (∀ a ∈ l, completes a = true) ∧ n ≤ l.length

theorem Lasts.mono {rest : List Answer} {m n : Nat} {s : State} (h : Lasts rest n s) (hm : m ≤ n) : Lasts rest m s := by
  obtain ⟨l, he, hc, hn⟩ := h; exact ⟨l, he, hc, by omega⟩

/-- The next primitive, a write, completes; one answer fewer is left. -/
theorem Lasts.write {rest : List Answer} {n : Nat} {s : State} (h : Lasts rest (n + 1) s) (a : BusAddr) (b : Byte)
    (stop : Bool) : s.writeAnswer a b stop ≠ .stall ∧ Lasts rest n (s.afterWrite a b stop) := by
  obtain ⟨l, he, hc, hn⟩ := h
  match l, hn with
  | x :: l, hn =>
    refine ⟨?_, l, State.afterWrite_env_script (by simpa using he) a b stop, fun y hy => hc y (by simp [hy]),
      by simpa using hn⟩
    rw [State.writeAnswer_script (a := x) (l := l ++ rest) (by simpa using he)]
    have := hc x (by simp)
    cases x <;> simp_all [completes, writeResult]

/-- The next primitive, a read, completes; one answer fewer is left. -/
theorem Lasts.read {rest : List Answer} {n : Nat} {s : State} (h : Lasts rest (n + 1) s) (a : BusAddr) :
    s.readAnswer a ≠ .stall ∧ Lasts rest n (s.afterRead a) := by
  obtain ⟨l, he, hc, hn⟩ := h
  match l, hn with
  | x :: l, hn =>
    refine ⟨?_, l, State.afterRead_env_script (by simpa using he) a, fun y hy => hc y (by simp [hy]), by simpa using hn⟩
    rw [State.readAnswer_script (a := x) (l := l ++ rest) (by simpa using he)]
    have := hc x (by simp)
    cases x <;> simp_all [completes, readResult]

theorem Lasts.env_eq {rest : List Answer} {n : Nat} {s t : State} (h : Lasts rest n s) (he : t.env = s.env) :
    Lasts rest n t := by obtain ⟨l, hl, hc, hn⟩ := h; exact ⟨l, he.trans hl, hc, hn⟩

theorem registerPhases_lasts {rest : List Answer} {n : Nat} {s : State} (r : Byte) (h : Lasts rest (n + 2) s) :
    ∃ b t, registerPhases r s = .done b t ∧ Lasts rest n t ∧ t.curport = s.curport := by
  obtain ⟨hw, h1⟩ := h.write s.cfg.accAddr r false
  obtain ⟨hr, h2⟩ := h1.read s.cfg.accAddr
  unfold registerPhases
  cases hx : s.writeAnswer s.cfg.accAddr r false with
  | stall => exact absurd hx hw
  | nack => exact ⟨_, _, rfl, (h1.mono (by omega)).env_eq rfl, rfl⟩
  | ack =>
    simp only [readPhase]
    cases hy : (s.afterWrite s.cfg.accAddr r false).readAnswer (s.afterWrite s.cfg.accAddr r false).cfg.accAddr with
    | stall => exact absurd hy hr
    | nack => exact ⟨_, _, rfl, h2.env_eq rfl, rfl⟩
    | ok b => exact ⟨_, _, rfl, h2, rfl⟩

/-- How many primitives `j` register reads on port `p` may take: two each, and one selection unless it is current. -/
def readCost (p : Port) (j : Nat) (s : State) : Nat := 2 * j + if s.curport = some p then 0 else 1

theorem readCost_le (p : Port) (j : Nat) (s : State) : readCost p j s ≤ 2 * j + 1 := by
  unfold readCost; split <;> omega

/-- A register read completes while the script lasts, and what is left suffices for the reads after it. -/
theorem readReg_lasts {rest : List Answer} {n j : Nat} {p : Port} {s : State} (r : Byte)
    (h : Lasts rest (n + readCost p (j + 1) s) s) :
    ∃ b t, readReg p r s = .done b t ∧ Lasts rest (n + readCost p j t) t := by
  unfold readReg
  by_cases hp : s.curport = some p
  · obtain ⟨b, t, hb, ht, hc⟩ := registerPhases_lasts (n := n + 2 * j) r (h.mono (by simp [readCost, hp]; omega))
    exact ⟨b, t, by simp [ensurePort, hp, hb], ht.mono (by simp [readCost, hc, hp])⟩
  · obtain ⟨hw, h1⟩ := Lasts.write (n := n + 2 * (j + 1)) (h.mono (by rw [readCost, if_neg hp]; omega)) s.cfg.muxAddr
      (mask p) true
    simp only [ensurePort, hp, if_false, select]
    cases hx : s.writeAnswer s.cfg.muxAddr (mask p) true with
    | stall => exact absurd hx hw
    | nack =>
      have left := readCost_le p j ((s.afterWrite s.cfg.muxAddr (mask p) true).setCurport none).raiseBusError
      exact ⟨_, _, rfl, (h1.env_eq rfl).mono (by omega)⟩
    | ack =>
      obtain ⟨b, t, hb, ht, hc⟩ := registerPhases_lasts (n := n + 2 * j) r
        (h1.env_eq (t := (s.afterWrite s.cfg.muxAddr (mask p) true).setCurport (some p)) rfl)
      exact ⟨b, t, by simpa using hb, ht.mono (by rw [readCost, hc]; simp)⟩

/-- One sensor's part of a round takes at most seven primitives. -/
theorem acqSensor_lasts {rest : List Answer} {n : Nat} {s : State} (k : Slot) (x : Sensor) (h : Lasts rest (n + 7) s) :
    ∃ t, acqSensor k x s = .done () t ∧ Lasts rest n t := by
  obtain ⟨bx, s1, h1, l1⟩ := readReg_lasts (n := n) (j := 2) (p := portMap x) Config.regX
    (h.mono (by have := readCost_le (portMap x) (2 + 1) s; omega))
  obtain ⟨byy, s2, h2, l2⟩ := readReg_lasts Config.regY l1
  obtain ⟨bz, s3, h3, l3⟩ := readReg_lasts Config.regZ l2
  exact ⟨s3.setSample x k ⟨decodeAxis bx, decodeAxis byy, decodeAxis bz⟩,
    by simp only [acqSensor, h1, h2, h3, Flow.bind_done], (l3.mono (by omega)).env_eq rfl⟩

theorem acqSensors_lasts {rest : List Answer} (k : Slot) (l : List Sensor) {n : Nat} {s : State}
    (h : Lasts rest (n + 7 * l.length) s) : ∃ t, acqSensors k l s = .done () t ∧ Lasts rest n t := by
  induction l generalizing s with
  | nil => exact ⟨s, rfl, h.mono (by simp)⟩
  | cons x l ih =>
    obtain ⟨t, ht, hl⟩ := acqSensor_lasts (n := n + 7 * l.length) k x (h.mono (by simp; omega))
    obtain ⟨u, hu, hl⟩ := ih hl
    exact ⟨u, by simp [acqSensors, ht, hu], hl⟩

/-- A round takes at most 28 primitives and completes while the script lasts. -/
theorem acqRound_lasts {rest : List Answer} {n : Nat} {s : State} (h : Lasts rest (n + 28) s) :
    ∃ t, acqRound s = .done () t ∧ Lasts rest n t := by
  have hb : Lasts rest (n + 28) (beginRound s) := h.env_eq (by unfold beginRound; split <;> rfl)
  obtain ⟨t, ht, hl⟩ := acqSensors_lasts s.wslot allSensors (n := n) (by simpa [allSensors] using hb)
  exact ⟨endRound s.wslot t, by simp [acqRound, ht], hl.env_eq (by unfold endRound; split <;> rfl)⟩

theorem acqRounds_lasts {rest : List Answer} (m : Nat) {n : Nat} {s : State} (h : Lasts rest (n + 28 * m) s) :
    ∃ t, acqRounds m s = .done () t ∧ Lasts rest n t := by
  induction m generalizing s with
  | zero => exact ⟨s, rfl, h⟩
  | succ m ih =>
    obtain ⟨t, ht, hl⟩ := acqRound_lasts (n := n + 28 * m) (h.mono (by omega))
    obtain ⟨u, hu, hl⟩ := ih hl
    exact ⟨u, by simp [acqRounds, ht, hu], hl⟩

/-! ### A script none of whose answers fails -/

/-- The state after a register read on the current port whose two answers are ok. -/
theorem readReg_current_ok {s : State} {p : Port} {r c b : Byte} {l : List Answer} (hp : s.curport = some p)
    (he : s.env = .script (.ok c :: .ok b :: l)) :
    readReg p r s = .done b { s with
      hist := s.hist ++ readTrace s.cfg r b, env := .script l, draws := s.draws + 2 } := by
  have h1 : s.writeAnswer s.cfg.accAddr r false = .ack := by rw [State.writeAnswer_script he]; rfl
  have e1 := State.afterWrite_env_script he s.cfg.accAddr r false
  have h2 : (s.afterWrite s.cfg.accAddr r false).readAnswer s.cfg.accAddr = .ok b := by
    rw [State.readAnswer_script e1]; rfl
  simp only [readReg, ensurePort, hp, if_true, Flow.bind_done, registerPhases, h1, readPhase, State.afterWrite_cfg, h2]
  congr 1
  apply State.ext <;> simp [hp, h1, h2, readTrace, he, Env.answerWrite, Env.answerRead]

/-- The state after a register read on another port whose three answers are ok. -/
theorem readReg_other_ok {s : State} {p : Port} {r c d b : Byte} {l : List Answer} (hp : s.curport ≠ some p)
    (he : s.env = .script (.ok c :: .ok d :: .ok b :: l)) :
    readReg p r s = .done b { s with
      curport := some p, hist := s.hist ++ (.write s.cfg.muxAddr (mask p) true .ack :: readTrace s.cfg r b),
      env := .script l, draws := s.draws + 3 } := by
  have h0 : s.writeAnswer s.cfg.muxAddr (mask p) true = .ack := by rw [State.writeAnswer_script he]; rfl
  have hs : ensurePort p s = .done true { s with
      curport := some p, hist := s.hist ++ [.write s.cfg.muxAddr (mask p) true .ack],
      env := .script (.ok d :: .ok b :: l), draws := s.draws + 1 } := by
    simp only [ensurePort, hp, if_false, select, h0]
    congr 1
    apply State.ext <;> simp [h0, he, Env.answerWrite]
  have hr := readReg_current_ok (s := { s with
      curport := some p, hist := s.hist ++ [.write s.cfg.muxAddr (mask p) true .ack],
      env := .script (.ok d :: .ok b :: l), draws := s.draws + 1 }) (p := p) (r := r) rfl rfl
  rw [readReg, hs]
  rw [readReg, ensurePort, if_pos rfl] at hr
  simp only [Flow.bind_done] at hr ⊢
  rw [hr]
  simp

/-- One sensor's part of a round, its selection skipped, when no answer fails. -/
theorem acqSensor_current_ok {s : State} {k : Slot} {x : Sensor} {c1 bx c2 byy c3 bz : Byte} {l : List Answer}
    (hp : s.curport = some (portMap x))
    (he : s.env = .script (.ok c1 :: .ok bx :: .ok c2 :: .ok byy :: .ok c3 :: .ok bz :: l)) :
    acqSensor k x s = .done () { s with
      win := Grid.set s.win x k ⟨decodeAxis bx, decodeAxis byy, decodeAxis bz⟩,
      winWritten := Grid.set s.winWritten x k true,
      hist := s.hist ++ (readTrace s.cfg Config.regX bx ++ readTrace s.cfg Config.regY byy ++ readTrace s.cfg Config.regZ bz),
      env := .script l, draws := s.draws + 6 } := by
  simp only [acqSensor, readReg_current_ok hp he, Flow.bind_done]
  rw [readReg_current_ok (by exact hp) rfl]
  simp only [Flow.bind_done]
  rw [readReg_current_ok (by exact hp) rfl]
  simp only [Flow.bind_done]
  congr 1
  apply State.ext <;> simp

/-- One sensor's part of a round, with its selection, when no answer fails. -/
theorem acqSensor_other_ok {s : State} {k : Slot} {x : Sensor} {c0 c1 bx c2 byy c3 bz : Byte} {l : List Answer}
    (hp : s.curport ≠ some (portMap x))
    (he : s.env = .script (.ok c0 :: .ok c1 :: .ok bx :: .ok c2 :: .ok byy :: .ok c3 :: .ok bz :: l)) :
    acqSensor k x s = .done () { s with
      curport := some (portMap x),
      win := Grid.set s.win x k ⟨decodeAxis bx, decodeAxis byy, decodeAxis bz⟩,
      winWritten := Grid.set s.winWritten x k true,
      hist := s.hist ++ (selectTrace s.cfg x ::
        (readTrace s.cfg Config.regX bx ++ readTrace s.cfg Config.regY byy ++ readTrace s.cfg Config.regZ bz)),
      env := .script l, draws := s.draws + 7 } := by
  simp only [acqSensor, readReg_other_ok hp he, Flow.bind_done]
  rw [readReg_current_ok rfl rfl]
  simp only [Flow.bind_done]
  rw [readReg_current_ok rfl rfl]
  simp only [Flow.bind_done]
  congr 1
  apply State.ext <;> simp [selectTrace]

end Sys2Proof.Machine
end

