-- ==== Sys2Proof/Tests/Slice0.lean ====
section
/-! SUPPORT. Small tests of the model, each against a value the spec writes out (30_encoding, 95_test_vectors), never against the model's own answer. -/

namespace Sys2Proof.Tests

open Sys2Proof.Machine

/-! ### Scenes -/

/-- What holds of the next state an outcome carries; nothing holds of a fault or a refusal. -/
def holdsAfter (P : State → Bool) : Host.Outcome State Fault Refusal → Bool
  | .next t => P t
  | .fault _ => false
  | .refused _ => false

theorem next_of {P : State → Bool} {o : Host.Outcome State Fault Refusal} (h : holdsAfter P o = true) :
    ∃ t, o = .next t ∧ P t = true := by
  cases o with
  | next t => exact ⟨t, rfl, h⟩
  | fault r => exact absurd h Bool.false_ne_true
  | refused r => exact absurd h Bool.false_ne_true

/-- The harness values of R8: MUX_ADDR = 0x70 and ACC_ADDR = 0x4C, which is 92 above it modulo 128. -/
def harness (pad : Fin 58) : Params := ⟨pad, 0x70#7, 91⟩

/-- The reset state with the harness values of R8 and an environment. -/
def start (env : Env) : State := { State.reset with cfg := harness 0, env := env }

/-- An accelerometer that holds one value in each of its three registers. -/
def accel (x y z : Byte) : Device := ⟨0#8, [(0x0E#8, [x]), (0x10#8, [y]), (0x12#8, [z])]⟩

/-- The four accelerometers of 95_test_vectors 2.5, with deviations. -/
def sensors (deviations : List Deviation) : Env := .reference
  { muxsel := none, deviations := deviations, writes := 0, reads := 0,
    devices := ⟨#[some (accel 0x05#8 0xF7#8 0x0A#8), none, none, none, some (accel 0x7F#8 0x80#8 0x00#8),
      some (accel 0x09#8 0x0B#8 0xF6#8), some (accel 0x14#8 0xEC#8 0x40#8), none], rfl⟩ }

/-- Before T2 (95_test_vectors 2.7): WFULL = 1 and sensor 2's window as it stands there. -/
def beforeT2 : State :=
  let rest (x : I8) : Vector3i8 := ⟨x, 9#8, 0x80#8⟩
  { start (.script []) with
    wfull := true, winWritten := Vector.replicate 4 (Vector.replicate 5 true)
    win := (Vector.replicate 4 (Vector.replicate 5 Vector3i8.zero)).set 2
      ⟨#[rest 12#8, rest 13#8, rest 13#8, rest 13#8, rest 13#8], rfl⟩ }

/-- The bytes of OUT. -/
def outBytes (s : State) : List Byte := (List.range s.cfg.sockPackSize).map s.out.read

/-- R8: the harness values, and the default ACCPACKSIZE with its SOCKPACKSIZE. -/
theorem test_harness :
    (harness 0).muxAddr = 0x70#7 ∧ (harness 0).accAddr = 0x4C#7 ∧ (harness 0).accPackSize = 3 ∧
    (harness 0).sockPackSize = 12 := by decide

/-! ### Well-formed words: an ill-formed word for each check (R84; vectors D8 to D16) -/

theorem test_wf_opDefined :
    [0x0000#16, 0x6000#16, 0xF000#16, 0xFFFF#16].map WellFormed.opDefined = [false, false, false, false] := by decide

theorem test_wf_zClear : [0x1E00#16, 0x2E0E#16, 0x4800#16].map WellFormed.zClear = [false, false, false] := by decide

theorem test_wf_regInRange :
    [0x1601#16, 0x3001#16, 0x4001#16, 0x5001#16].map WellFormed.regInRange = [false, false, false, false] := by decide

theorem test_wf_aInRange :
    [0x3100#16, 0x4400#16, 0x5700#16].map WellFormed.aInRange = [false, false, false] := by decide

theorem test_wf_word_accepts :
    [0x1000#16, 0x1700#16, 0x27FF#16, 0x3000#16, 0x4300#16, 0x5000#16].all WellFormed.word = true := by decide

theorem test_wf_word_refuses :
    [0x0000#16, 0x1E00#16, 0x1601#16, 0x4400#16, 0x3100#16].any WellFormed.word = false := by decide

/-! ### Decoding: words written out bit by bit from R82 -/

theorem test_decode_selport : decode 0b0001_0_101_00000000#16 = .command (.selport 5#3) := by decide

theorem test_decode_rdreg : decode 0b0010_0_110_00001110#16 = .command (.rdreg 6#3 0x0E#8) := by decide

theorem test_decode_rdreg_all_ones : decode 0b0010_0_111_11111111#16 = .command (.rdreg 7#3 0xFF#8) := by decide

theorem test_decode_acq : decode 0b0011_0_000_00000000#16 = .command .acq := by decide

theorem test_decode_filt : decode 0b0100_0_0_10_00000000#16 = .command (.filt 2#2) := by decide

theorem test_decode_run : decode 0b0101_0_000_00000000#16 = .command .run := by decide

theorem test_decode_refuses_by_name :
    [0x0000#16, 0x1E00#16, 0x1601#16, 0x4400#16].map decode =
      [.refused .reservedOp, .refused .bit11Set, .refused .regNotZero, .refused .aOutOfRange] := by decide

theorem test_encode :
    encode (.selport 6#3) = 0x1600#16 ∧ encode (.rdreg 4#3 0x0E#8) = 0x240E#16 ∧ encode (.filt 3#2) = 0x4300#16 := by
  decide

theorem test_decodeTableWord :
    decodeTableWord 16 0x260E = some (.rdreg 6#3 0x0E#8) ∧ decodeTableWord 16 0x4400 = none := by decide

/-- No two rows of the table select one word: wherever both masks look, the rows differ (R82). -/
theorem test_rows_disjoint :
    opcodeTable.Pairwise fun r q => r.match_ &&& r.mask &&& q.mask ≠ q.match_ &&& r.mask &&& q.mask := by decide

/-! ### SELPORT and RDREG (vectors S7, S9, V1, V4) -/

/-- S7: response 0x000, CURPORT register 0x0E, one event. -/
theorem test_selport_ack :
    holdsAfter (fun t => t.responses = [0x000#10] ∧ readRegister t 0x01#8 = 0x0E#8 ∧
      t.hist = [.write 0x70#7 0x40#8 true .ack]) (exec (.selport 6#3) (start (sensors []))) = true := by decide

/-- S9: response 0x100, CURPORT register 0x00, BERR and LBERR set. -/
theorem test_selport_nack :
    holdsAfter (fun t => t.responses = [0x100#10] ∧ readRegister t 0x01#8 = 0x00#8 ∧ readRegister t 0x00#8 = 0x06#8)
      (exec (.selport 6#3) (start (sensors [⟨.write, 1, .nack⟩]))) = true := by decide

/-- V1, with the devices of 2.5: the selection, the address, the byte. -/
theorem test_rdreg_selects :
    holdsAfter (fun t => t.responses = [0x014#10] ∧ t.rdata = 0x14#8 ∧ t.hist =
        [.write 0x70#7 0x40#8 true .ack, .write 0x4C#7 0x0E#8 false .ack, .read 0x4C#7 (.ok 0x14#8)])
      (exec (.rdreg 6#3 0x0E#8) (start (sensors []))) = true := by decide

/-- V4: a port without a device: the address write fails, nothing is read, the port stays selected. -/
theorem test_rdreg_no_device :
    holdsAfter (fun t => t.responses = [0x100#10] ∧ t.curport = some 1#3 ∧ t.rdata = 0x00#8 ∧ t.hist =
        [.write 0x70#7 0x02#8 true .ack, .write 0x4C#7 0x10#8 false .nack])
      (exec (.rdreg 1#3 0x10#8) (start (sensors []))) = true := by decide

/-- R65: a `BusRead` whose answer is scripted consumes a listed value like any other, so the read after the first of
three shows the second value, and the one after a scripted ok(0x7E) the third. -/
theorem test_scripted_read_consumes :
    let device : Device := ⟨0x0E#8, [(0x0E#8, [1#8, 2#8, 3#8])]⟩
    let env (a : Answer) : RefEnv := ⟨some 0x40#8, (Vector.replicate 8 none).set 6 (some device), [⟨.read, 1, a⟩], 0, 0⟩
    let first (a : Answer) := (env a).answerRead (harness 0) 0x4C#7
    (first .nack).1 = .nack ∧ ((first .nack).2.answerRead (harness 0) 0x4C#7).1 = .ok 2#8 ∧
    (first (.ok 0x7E#8)).1 = .ok 0x7E#8 ∧
    (((first (.ok 0x7E#8)).2.answerRead (harness 0) 0x4C#7).2.answerRead (harness 0) 0x4C#7).1 = .ok 3#8 := by
  decide +kernel

/-! ### ACQ (vectors Q1, Q7) -/

/-- Q1: the four vectors, the cursor, 28 events. -/
theorem test_acq_from_reset :
    holdsAfter (fun t => allSensors.map (fun x => Grid.get t.win x 0) =
        [⟨20#8, 0xEC#8, 64#8⟩, ⟨5#8, 0xF7#8, 10#8⟩, ⟨127#8, 0x80#8, 0#8⟩, ⟨9#8, 11#8, 0xF6#8⟩] ∧
        t.wslot = 1 ∧ t.wfull = false ∧ t.curport = some 5#3 ∧ t.hist.length = 28)
      (exec .acq (start (sensors []))) = true := by decide +kernel

/-- Q7: no control write is acknowledged: 12 attempts, no sensor traffic. -/
theorem test_acq_no_multiplexer :
    holdsAfter (fun t => t.responses = [0x100#10] ∧ t.curport = none ∧ t.wslot = 1 ∧ t.hist.length = 12)
      (exec .acq (start (.script (List.replicate 12 .nack)))) = true := by decide +kernel

/-! ### The filter (vectors F3, F4, F6, F11, F15, F26) -/

theorem test_filter_dead_zone :
    filterAxis 10#8 10#8 10#8 10#8 9#8 = 0x00#8 ∧ filterAxis 10#8 10#8 10#8 10#8 10#8 = 0x0A#8 ∧
    filterAxis 0xF6#8 0xF6#8 0xF6#8 0xF6#8 0xF6#8 = 0xF6#8 := by decide

theorem test_filter_rounds_to_nearest :
    filterAxis 10#8 10#8 11#8 11#8 11#8 = 0x0B#8 ∧ filterAxis 0xF6#8 0xF6#8 0xF5#8 0xF5#8 0xF5#8 = 0xF5#8 ∧
    filterAxis 127#8 127#8 127#8 127#8 126#8 = 0x7F#8 := by decide

/-! ### FILT and RUN (vectors T1, T2, T5, T7) -/

/-- T1: refused right after reset. -/
theorem test_filt_refused :
    holdsAfter (fun t => t.responses = [0x200#10] ∧ readRegister t 0x00#8 = 0x08#8 ∧ t.out = [])
      (exec (.filt 0#2) (start (.script []))) = true := by decide

/-- T2: OUT[6] = 0x0D, OUT[7] = 0x00, OUT[8] = 0x80. -/
theorem test_filt_sensor2 :
    holdsAfter (fun t => t.responses = [0x000#10] ∧
        outBytes t = [0, 0, 0, 0, 0, 0, 0x0D#8, 0x00#8, 0x80#8, 0, 0, 0]) (exec (.filt 2#2) beforeT2) = true := by
  decide +kernel

/-- T5: OUT = 14 EC 40 00 00 0A 7F 80 00 00 0B F6, WSLOT = 0, STATUS = 0x01, 140 events. -/
theorem test_run_from_reset :
    holdsAfter (fun t => outBytes t = [0x14#8, 0xEC#8, 0x40#8, 0, 0, 0x0A#8, 0x7F#8, 0x80#8, 0, 0, 0x0B#8, 0xF6#8] ∧
        t.wslot = 0 ∧ readRegister t 0x00#8 = 0x01#8 ∧ t.hist.length = 140)
      (exec .run (start (sensors []))) = true := by decide +kernel

/-- T7: with ACCPACKSIZE = 4 the padding bytes 3, 7, 11, 15 stay 0x00. -/
theorem test_run_padding :
    holdsAfter (fun t => outBytes t =
        [0x14#8, 0xEC#8, 0x40#8, 0, 0, 0, 0x0A#8, 0, 0x7F#8, 0x80#8, 0, 0, 0, 0x0B#8, 0xF6#8, 0])
      (exec .run { start (sensors []) with cfg := harness 1 }) = true := by decide +kernel

/-! ### The hang, reset, the host's side -/

/-- S11, R199: no response, STUCK = 1; the next command is not executed. -/
theorem test_hang :
    holdsAfter (fun t => t.stuck ∧ t.responses = [] ∧ t.curport = none ∧
        holdsAfter (fun _ => true) (step { t with host := [.command 0x1600#16] }) = false)
      (exec (.selport 6#3) (start (.script [.stall]))) = true := by decide

/-- R220: reset leaves a hang, and the waiting command is then executed first. -/
theorem test_reset_leaves_hang :
    holdsAfter (fun t => t.stuck = false ∧ t.host = [.command 0x3000#16] ∧ t.curport = none)
      (step { start (.script []) with stuck := true, curport := some 6#3,
                                      host := [.command 0x3000#16, .reset] }) = true := by decide

/-- The command placed by `withFetchWord` is the one the next step executes. -/
theorem test_withFetchWord :
    holdsAfter (fun t => t.hist = [.write 0x70#7 0x80#8 true .ack] ∧ t.host = [])
      (step ((start (sensors [])).withFetchWord 16 0x1700)) = true := by decide

/-- R36: the register map with the default ACCPACKSIZE, OUT at 0x10 to 0x1B. -/
theorem test_register_map :
    [0x00#8, 0x01#8, 0x02#8, 0x03#8, 0x04#8, 0x0F#8, 0x10#8, 0x1B#8, 0x1C#8, 0xFF#8].map
        (readRegister { start (.script []) with
          wfull := true, lberr := true, curport := some 5#3, wslot := 4, rdata := 0xAB#8,
          out := [(0, 0x0D#8), (11, 0x7F#8)] }) =
      [0x05#8, 0x0D#8, 0x04#8, 0xAB#8, 0x00#8, 0x00#8, 0x0D#8, 0x7F#8, 0x00#8, 0x00#8] := by decide

/-- R8, R88: the address bytes of the harness: 0xE0, 0x98, 0x99. -/
theorem test_address_bytes :
    addressByte 0x70#7 false = 0xE0#8 ∧ addressByte 0x4C#7 false = 0x98#8 ∧ addressByte 0x4C#7 true = 0x99#8 := by
  decide

/-- P1: the second and third event are `START 0x98 A 0x0E A Sr 0x99 A 0x14 N STOP`. -/
theorem test_wire_register_read :
    wireOf false [.write 0x4C#7 0x0E#8 false .ack, .read 0x4C#7 (.ok 0x14#8)] =
      some [.start, .byte 0x98#8, .ack, .byte 0x0E#8, .ack, .repeatedStart, .byte 0x99#8, .ack, .byte 0x14#8, .nack,
        .stop] := by decide

/-- R87: P4's steps 2 and 3 as a listing. -/
theorem test_assemble :
    assemble ["SELTOF".toList, "RDSENS 3, 0x0E ; sensor 3".toList] = some [0x1700#16, 0x250E#16] := by decide

/-- R87: a port above 7 and an unknown mnemonic do not assemble. -/
theorem test_assemble_refuses :
    assembleLine "SELPORT 8".toList = none ∧ assembleLine "NOP".toList = none := by decide

end Sys2Proof.Tests
end

