-- ==== Sys2Proof/Tests/Witnesses.lean ====
section
/-! SUPPORT. For each statement with hypotheses, concrete states and operands that meet all of them together, at the boundary values of each clause. -/

namespace Sys2Proof.Tests

open Sys2Proof.Machine

/-- Acknowledged answers carrying the bytes from 1 on. -/
def oks (n : Nat) : List Answer := (List.range n).map fun i => .ok (BitVec.ofNat 8 (i + 1))

/-- A state with host actions pending. -/
def withHost (s : State) (host : List HostAction) : State := { s with host := host }

/-! ### Encoding -/

theorem witness_decodeEncodeRoundTrip :
    [Instr.selport 0#3, .selport 7#3, .rdreg 0#3 0x00#8, .rdreg 7#3 0xFF#8, .acq, .filt 0#2, .filt 3#2, .run].all
      Instr.wellFormed = true := by decide

theorem witness_encodeDecodedWord :
    decode 0x1700#16 = .command (.selport 7#3) ∧ decode 0x27FF#16 = .command (.rdreg 7#3 0xFF#8) ∧
    decode 0x4300#16 = .command (.filt 3#2) := by decide

/-- A word of each clause of R84 that matches no row, at the ends of the reserved OP values. -/
theorem witness_refusedWords :
    ([0x0000#16, 0x6000#16, 0xFFFF#16, 0x1800#16, 0x4400#16, 0x1001#16, 0x30FF#16, 0x4001#16, 0x5001#16, 0x3100#16,
      0x5700#16].all fun w => opcodeTable.all fun row => row.selects w == false) = true ∧
    (withHost (start (.script [])) [.command 0x4400#16]).idle ∧
    (withHost (start (.script [])) [.command 0x4400#16]).host = .command 0x4400#16 :: [] := by decide

/-! ### The host's side -/

theorem witness_stepRunsDecodedCommand :
    (withHost (start (.script [])) [.command 0x27FF#16, .reset]).idle ∧
    (withHost (start (.script [])) [.command 0x27FF#16, .reset]).host = .command 0x27FF#16 :: [.reset] ∧
    decode 0x27FF#16 = .command (.rdreg 7#3 0xFF#8) := by decide

/-- The register map's clauses at both ends of each range, for ACCPACKSIZE 3 and 60. -/
theorem witness_registerMapContents :
    { start (.script []) with curport := some 7#3 }.curport = some 7#3 ∧ (start (.script [])).curport = none ∧
    (0x04 ≤ (0x04#8).toNat ∧ (0x04#8).toNat ≤ 0x0F) ∧ (0x04 ≤ (0x0F#8).toNat ∧ (0x0F#8).toNat ≤ 0x0F) ∧
    (0 < (start (.script [])).cfg.sockPackSize ∧ (0x10#8).toNat = 0x10 + 0) ∧
    (11 < (start (.script [])).cfg.sockPackSize ∧ (0x1B#8).toNat = 0x10 + 11) ∧
    (0x10 + (start (.script [])).cfg.sockPackSize ≤ (0x1C#8).toNat) ∧
    (239 < (harness 57).sockPackSize ∧ (0xFF#8).toNat = 0x10 + 239) := by decide

theorem witness_registerReadHasNoSideEffect :
    (withHost (start (.script [])) [.readReg 0xFF#8]).idle ∧
    (withHost (start (.script [])) [.readReg 0xFF#8]).host = .readReg 0xFF#8 :: [] := by decide

/-- A stuck state with a next step. -/
def stuckWaiting : State :=
  { withHost (start (.script [])) [.readReg 0#8, .reset] with stuck := true, curport := some 6#3, berr := true }

theorem witness_registerRead_stuck : ∃ t, step stuckWaiting = .next t ∧ stuckWaiting.stuck = true := by
  obtain ⟨t, h, -⟩ := next_of (P := fun _ => true) (o := step stuckWaiting) (by decide)
  exact ⟨t, h, rfl⟩

/-- Reset between commands, during one, and in a hang behind a waiting action. -/
theorem witness_resetFromAnyState :
    ((withHost beforeT2 [.reset, .busUse]).host = [] ++ HostAction.reset :: [.busUse] ∧ beforeT2.stuck = false) ∧
    ((withHost beforeT2 [.resetDuringCommand]).host = [] ++ HostAction.resetDuringCommand :: [] ∧
      beforeT2.stuck = false) ∧
    (stuckWaiting.host = [.readReg 0#8] ++ HostAction.reset :: [] ∧ stuckWaiting.stuck = true ∧
      ∀ b ∈ [HostAction.readReg 0#8], b ≠ .reset ∧ b ≠ .resetDuringCommand) := by decide

theorem witness_stuckBlockHasNoStep :
    { beforeT2 with stuck := true }.stuck = true ∧
    (∀ a ∈ { beforeT2 with stuck := true }.host, a ≠ HostAction.reset ∧ a ≠ .resetDuringCommand) ∧
    ∀ a ∈ (withHost { beforeT2 with stuck := true } [.command 0x3000#16, .readReg 0#8]).host,
      a ≠ HostAction.reset ∧ a ≠ .resetDuringCommand := by decide

theorem witness_otherMasterLeavesBlock :
    (withHost (start (sensors [])) [.busUse]).idle ∧ (withHost (start (sensors [])) [.busUse]).host = .busUse :: [] ∧
    (withHost (start (sensors [])) [.rawRoute (some 0x80#8)]).host = .rawRoute (some 0x80#8) :: [] := by decide

/-- A refused word, RDREG completing, RDREG failing, and a hang. -/
theorem witness_responseOfEveryCommand :
    holdsAfter (fun t => t.stuck = false ∧ t.lref) (step (withHost (start (.script [])) [.command 0x4400#16])) ∧
    holdsAfter (fun t => t.stuck = false ∧ t.lberr = false)
      (step (withHost (start (.script (oks 3))) [.command 0x260E#16])) ∧
    holdsAfter (fun t => t.stuck = false ∧ t.lberr) (step (withHost (start (.script [.nack])) [.command 0x260E#16])) ∧
    holdsAfter (fun t => t.stuck) (step (withHost (start (.script [.stall])) [.command 0x260E#16])) := by decide

/-! ### SELPORT and RDREG -/

theorem witness_selportResult :
    (start (.script [.ok 0#8])).writeAnswer 0x70#7 (mask 7#3) true = .ack ∧
    (start (.script [.nack])).writeAnswer 0x70#7 (mask 0#3) true = .nack ∧
    (start (.script [.stall])).writeAnswer 0x70#7 (mask 0#3) true = .stall ∧ (start (.script [.stall])).idle := by
  decide

/-- CURPORT = some(6). -/
def onPort6 (l : List Answer) : State := { start (.script l) with curport := some 6#3 }

theorem witness_rdregOnCurrentPort :
    (onPort6 (oks 2)).idle ∧ (onPort6 (oks 2)).curport = some 6#3 ∧
    (onPort6 (oks 2)).writeAnswer 0x4C#7 0x0E#8 false = .ack ∧
    ((onPort6 (oks 2)).afterWrite 0x4C#7 0x0E#8 false).readAnswer 0x4C#7 = .ok 2#8 := by decide

theorem witness_rdregOnOtherPort :
    (start (.script (oks 3))).curport ≠ some 7#3 ∧ (onPort6 (oks 3)).idle ∧ (onPort6 (oks 3)).curport ≠ some 7#3 ∧
    (onPort6 (oks 3)).writeAnswer 0x70#7 (mask 7#3) true = .ack ∧
    ((onPort6 (oks 3)).afterWrite 0x70#7 (mask 7#3) true).writeAnswer 0x4C#7 0xFF#8 false = .ack ∧
    (((onPort6 (oks 3)).afterWrite 0x70#7 (mask 7#3) true).afterWrite 0x4C#7 0xFF#8 false).readAnswer 0x4C#7 =
      .ok 3#8 := by decide

/-- Each of the five failing phases. -/
theorem witness_rdregFailures :
    (onPort6 [.nack]).curport ≠ some 0#3 ∧ (onPort6 [.nack]).writeAnswer 0x70#7 (mask 0#3) true = .nack ∧
    (onPort6 [.ok 0#8, .nack]).writeAnswer 0x70#7 (mask 0#3) true = .ack ∧
    ((onPort6 [.ok 0#8, .nack]).afterWrite 0x70#7 (mask 0#3) true).writeAnswer 0x4C#7 0x0E#8 false = .nack ∧
    (((onPort6 [.ok 0#8, .ok 0#8, .nack]).afterWrite 0x70#7 (mask 0#3) true).afterWrite 0x4C#7 0x0E#8
      false).readAnswer 0x4C#7 = .nack ∧
    (onPort6 [.nack]).curport = some 6#3 ∧ (onPort6 [.nack]).writeAnswer 0x4C#7 0x0E#8 false = .nack ∧
    (onPort6 [.ok 0#8, .nack]).writeAnswer 0x4C#7 0x0E#8 false = .ack ∧
    ((onPort6 [.ok 0#8, .nack]).afterWrite 0x4C#7 0x0E#8 false).readAnswer 0x4C#7 = .nack := by decide

/-- A procedure ended with a value. -/
def isDone {α : Type} : Flow α → Bool
  | .done _ _ => true
  | .hung _ => false

theorem done_of {α : Type} {x : Flow α} (h : isDone x = true) : ∃ a t, x = .done a t := by
  cases x with
  | done a t => exact ⟨a, t, rfl⟩
  | hung t => exact absurd h Bool.false_ne_true

/-- `ReadReg` completes with one, two and three primitives, failing and not. -/
theorem witness_readRegEndsAtFirstFailure :
    (∃ b t, readReg 0#3 0x0E#8 (onPort6 [.nack]) = .done b t) ∧
    (∃ b t, readReg 6#3 0x0E#8 (onPort6 [.ok 0#8, .nack]) = .done b t) ∧
    (∃ b t, readReg 0#3 0x0E#8 (onPort6 (oks 3)) = .done b t) :=
  ⟨done_of (by decide), done_of (by decide), done_of (by decide)⟩

/-! ### ACQ -/

theorem witness_axisDecoding : (-128 : Int) ≤ -128 ∧ (-128 : Int) ≤ 127 ∧ (-128 : Int) ≤ 127 ∧ (127 : Int) ≤ 127 ∧
    decodeAxis 0xFF#8 = decodeAxis 0xFF#8 ∧ portMap 3#2 = portMap 3#2 := by decide

/-- The cursor at each end and in the middle; a first selection needed after reset and after a round. -/
theorem witness_failureFreeRound :
    (oks 28).length = 28 ∧ (∀ a ∈ oks 28, isOk a = true) ∧
    ∀ k ∈ [(0 : Slot), 2, 4], ∀ c ∈ [none, some 5#3],
      { start (.script (oks 28 ++ [Answer.stall])) with wslot := k, curport := c }.idle ∧
      { start (.script (oks 28 ++ [Answer.stall])) with wslot := k, curport := c }.curport ≠ some 6#3 ∧
      { start (.script (oks 28 ++ [Answer.stall])) with wslot := k, curport := c }.env = .script (oks 28 ++ [Answer.stall]) := by
  decide +kernel

theorem witness_failureFreeRoundFromPort6 :
    (onPort6 (oks 27 ++ [.nack])).idle ∧ (onPort6 (oks 27 ++ [.nack])).curport = some 6#3 ∧ (oks 27).length = 27 ∧
    (∀ a ∈ oks 27, isOk a = true) ∧ (onPort6 (oks 27 ++ [.nack])).env = .script (oks 27 ++ [.nack]) := by decide +kernel

theorem witness_acqCompletesDespiteFailures :
    (start (.script (List.replicate 28 .nack ++ []))).idle ∧ 28 ≤ (List.replicate 28 Answer.nack).length ∧
    (∀ a ∈ List.replicate 28 Answer.nack, completes a = true) := by decide +kernel

theorem witness_roundWithoutMultiplexer :
    (start (.script (List.replicate 12 .nack ++ [.stall]))).idle ∧
    (start (.script (List.replicate 12 .nack ++ [.stall]))).curport ≠ some 6#3 := by decide

/-- ACQ with a next state: completed, and hung at its second primitive. -/
theorem witness_acqFrame :
    (∃ t, exec .acq (start (sensors [])) = .next t ∧ t.stuck = false) ∧
    (∃ t, exec .acq (start (.script [.ok 0#8, .stall])) = .next t ∧ t.stuck = true) := by
  constructor
  · obtain ⟨t, h, p⟩ := next_of (P := fun t => !t.stuck) (o := exec .acq (start (sensors []))) (by decide +kernel)
    exact ⟨t, h, by simpa using p⟩
  · exact next_of (P := fun t => t.stuck) (by decide +kernel)

/-! ### The filter -/

/-- Sums on both sides of the dead zone's ends, and at the ends of the range. -/
theorem witness_filterSums :
    axisSum 10#8 10#8 10#8 10#8 9#8 = 49 ∧ axisSum 10#8 10#8 10#8 10#8 10#8 = 50 ∧
    axisSum 0xF6#8 0xF6#8 0xF6#8 0xF6#8 0xF7#8 = -49 ∧ axisSum 0xF6#8 0xF6#8 0xF6#8 0xF6#8 0xF6#8 = -50 ∧
    axisSum 127#8 127#8 127#8 127#8 127#8 = 635 ∧ axisSum 0x80#8 0x80#8 0x80#8 0x80#8 0x80#8 = -640 := by decide

theorem witness_filterIsNearestToAverage :
    |((0 : ℤ) : ℚ) - deadZoneAverage 10#8 10#8 10#8 10#8 9#8| ≤ 1 / 2 ∧
    |((11 : ℤ) : ℚ) - deadZoneAverage 10#8 10#8 11#8 11#8 11#8| ≤ 1 / 2 := by
  have a : axisSum 10#8 10#8 10#8 10#8 9#8 = 49 := by decide
  have b : axisSum 10#8 10#8 11#8 11#8 11#8 = 53 := by decide
  unfold deadZoneAverage
  rw [a, b]
  norm_num [abs_lt, abs_le]

theorem witness_sumOrder : [1#8, 0x80#8, 3#8].Perm [3#8, 1#8, 0x80#8] := by decide

/-- Both ends of both ranges of outputs, and of the values below the threshold. -/
theorem witness_filterOutputs :
    filterOutput 0x00#8 ∧ filterOutput 0x0A#8 ∧ filterOutput 0x7F#8 ∧ filterOutput 0xF6#8 ∧ filterOutput 0x80#8 ∧
    |(9#8).toInt| < 10 ∧ |(0xF7#8).toInt| < 10 := by
  unfold filterOutput
  decide

theorem witness_smallSamples :
    (∀ v ∈ [9#8, 0xF7#8, 9#8, 0#8, 9#8], |v.toInt| < 10) ∧
    (∀ v ∈ [1#8, 0xFF#8, 1#8, 0#8, 1#8], |v.toInt| < 2) := by decide

/-! ### FILT -/

theorem witness_filtResult :
    beforeT2.idle ∧ beforeT2.wfull = true ∧ (start (.script [])).idle ∧ (start (.script [])).wfull = false := by decide

/-- FILT with a next state, executed and refused; a byte outside its store; another sensor's byte. -/
theorem witness_filtFrame :
    (∃ t, exec (.filt 2#2) beforeT2 = .next t ∧ t.lref = false) ∧
    (∃ t, exec (.filt 2#2) (start (.script [])) = .next t ∧ t.lref = true) ∧
    (∀ j, j < 3 → 9 ≠ outOffset beforeT2.cfg 2#2 j) ∧ (1#2 ≠ 2#2 ∧ 2 < beforeT2.cfg.accPackSize) := by
  refine ⟨?_, next_of (P := fun t => t.lref) (by decide), by decide, by decide⟩
  obtain ⟨t, h, p⟩ := next_of (P := fun t => !t.lref) (o := exec (.filt 2#2) beforeT2) (by decide +kernel)
  exact ⟨t, h, by simpa using p⟩

theorem witness_filtIsIdempotent : ∃ t, beforeT2.wfull = true ∧ exec (.filt 2#2) beforeT2 = .next t := by
  obtain ⟨t, h, -⟩ := next_of (P := fun _ => true) (o := exec (.filt 2#2) beforeT2) (by decide +kernel)
  exact ⟨t, rfl, h⟩

/-- The window of `beforeT2` with everything but sensor 2's X changed. -/
def otherLanes : State :=
  let other (x : I8) : Vector3i8 := ⟨x, 77#8, 66#8⟩
  { beforeT2 with
    curport := some 1#3, rdata := 0x55#8
    win := (Vector.replicate 4 (Vector.replicate 5 ⟨1#8, 2#8, 3#8⟩)).set 2
      ⟨#[other 12#8, other 13#8, other 13#8, other 13#8, other 13#8], rfl⟩ }

/-- Two states that agree on one lane only, both filtered. -/
theorem witness_lanesAreIndependent :
    beforeT2.wfull = true ∧ otherLanes.wfull = true ∧ beforeT2.cfg = otherLanes.cfg ∧
    (∃ t, exec (.filt 2#2) beforeT2 = .next t) ∧ (∃ t, exec (.filt 2#2) otherLanes = .next t) ∧
    (∀ k, (Grid.get beforeT2.win 2#2 k).x = (Grid.get otherLanes.win 2#2 k).x) ∧
    (∀ k, (Grid.get beforeT2.win 2#2 k).y ≠ (Grid.get otherLanes.win 2#2 k).y) ∧
    (∀ k, (Grid.get beforeT2.win 2#2 k).z ≠ (Grid.get otherLanes.win 2#2 k).z) := by
  refine ⟨by decide, by decide, by decide, ?_, ?_, by decide +kernel, by decide +kernel, by decide +kernel⟩
  · obtain ⟨t, h, -⟩ := next_of (P := fun _ => true) (o := exec (.filt 2#2) beforeT2) (by decide +kernel)
    exact ⟨t, h⟩
  · obtain ⟨t, h, -⟩ := next_of (P := fun _ => true) (o := exec (.filt 2#2) otherLanes) (by decide +kernel)
    exact ⟨t, h⟩

/-- The hypotheses of the Y and Z clauses, on the same state twice. -/
theorem witness_lanes_yz :
    (∀ k, (Grid.get beforeT2.win 2#2 k).y = (Grid.get beforeT2.win 2#2 k).y) ∧
    (∀ k, (Grid.get beforeT2.win 2#2 k).z = (Grid.get beforeT2.win 2#2 k).z) := ⟨fun _ => rfl, fun _ => rfl⟩

/-! ### RUN -/

/-- A script of failures and acknowledgements without a stall. -/
def mixed : List Answer := .nack :: .ok 9#8 :: List.replicate 138 .nack

theorem witness_runCompletes :
    (start (.script (mixed ++ [.stall]))).idle ∧ 140 ≤ mixed.length ∧ (∀ a ∈ mixed, completes a = true) := by
  decide +kernel

/-- RUN from WSLOT = 0 that completes. -/
theorem witness_runEqualsRoundsThenFilters :
    (start (.script (List.replicate 140 (.ok 50#8)))).wslot = 0 ∧
    ∃ t, exec .run (start (.script (List.replicate 140 (.ok 50#8)))) = .next t ∧ t.idle := by
  refine ⟨rfl, ?_⟩
  obtain ⟨t, h, p⟩ := next_of (P := fun t => !t.stuck)
    (o := exec .run (start (.script (List.replicate 140 (.ok 50#8))))) (by decide +kernel)
  exact ⟨t, h, by simpa using p⟩

/-- A completing RUN after three rounds of another cycle. -/
theorem witness_runForgetsTheOldWindow :
    ∃ t, exec .run { start (.script mixed) with wslot := 3 } = .next t ∧ t.idle := by
  obtain ⟨t, h, p⟩ := next_of (P := fun t => !t.stuck)
    (o := exec .run { start (.script mixed) with wslot := 3 }) (by decide +kernel)
  exact ⟨t, h, by simpa using p⟩

/-- A RUN that hangs in its second round. -/
theorem witness_hungRunKeepsOut :
    ∃ t, exec .run (start (.script (List.replicate 30 (.ok 0#8) ++ [.stall]))) = .next t ∧ t.stuck = true :=
  next_of (P := fun t => t.stuck) (by decide +kernel)

/-- From CURPORT = some(6), 139 answers; otherwise 140. -/
theorem witness_runBusTraffic :
    (start (.script (oks 140 ++ [.nack]))).idle ∧ (∀ a ∈ oks 140, isOk a = true) ∧
    (oks 140).length = (if (start (.script (oks 140 ++ [.nack]))).curport = some 6#3 then 139 else 140) ∧
    (onPort6 (oks 139 ++ [.nack])).idle ∧ (∀ a ∈ oks 139, isOk a = true) ∧
    (oks 139).length = (if (onPort6 (oks 139 ++ [.nack])).curport = some 6#3 then 139 else 140) := by decide +kernel

theorem witness_runFrame :
    (∃ t, exec .run (start (sensors [])) = .next t) ∧
    ∀ (x : Sensor) (j : Nat), j < 3 → 12 ≠ outOffset (start (sensors [])).cfg x j := by
  refine ⟨?_, by decide⟩
  obtain ⟨t, h, -⟩ := next_of (P := fun _ => true) (o := exec .run (start (sensors []))) (by decide +kernel)
  exact ⟨t, h⟩

/-! ### All commands, every step -/

/-- Every command answers a next state: completing, and, where it uses the bus, hanging. -/
theorem witness_commandsAnswer :
    ([Instr.selport 0#3, .rdreg 7#3 0xFF#8, .acq, .filt 3#2, .run].all fun i =>
      holdsAfter (fun t => t.stuck = false) (exec i (start (sensors [])))) = true ∧
    ([Instr.selport 0#3, .rdreg 7#3 0xFF#8, .acq, .run].all fun i =>
      holdsAfter (fun t => t.stuck) (exec i (start (.script [.stall])))) = true := by decide +kernel

theorem witness_busCommandFrame :
    (∃ t, exec (.selport 7#3) (start (sensors [])) = .next t) ∧
    (∃ t, exec (.rdreg 7#3 0xFF#8) (start (.script [.ok 0#8, .stall])) = .next t ∧ t.stuck = true) := by
  refine ⟨?_, next_of (P := fun t => t.stuck) (by decide)⟩
  obtain ⟨t, h, -⟩ := next_of (P := fun _ => true) (o := exec (.selport 7#3) (start (sensors []))) (by decide)
  exact ⟨t, h⟩

/-- The hypothesis "`exec` answers a next state", for a command that fails on the bus: also for the statements on the
error flags, on stalls, on bus traffic. -/
theorem witness_execNext : ∃ t, exec (.rdreg 6#3 0x0E#8) (start (.script [.ok 0#8, .nack])) = .next t ∧ t.berr = true :=
  next_of (P := fun t => t.berr) (by decide)

theorem witness_filtCausesNoBusActivity : ∃ t, exec (.filt 3#2) beforeT2 = .next t := by
  obtain ⟨t, h, -⟩ := next_of (P := fun _ => true) (o := exec (.filt 3#2) beforeT2) (by decide +kernel)
  exact ⟨t, h⟩

/-- BERR cleared on a stuck block, and on an idle one. -/
theorem witness_berrClearedOnlyByReset :
    (∃ t, step stuckWaiting = .next t ∧ stuckWaiting.berr = true ∧ t.berr = false) ∧
    (∃ t, step { withHost beforeT2 [.reset, .busUse] with berr := true } = .next t ∧ t.berr = false) := by
  constructor
  · obtain ⟨t, h, p⟩ := next_of (P := fun t => !t.berr) (o := step stuckWaiting) (by decide)
    exact ⟨t, h, rfl, by simpa using p⟩
  · obtain ⟨t, h, p⟩ := next_of (P := fun t => !t.berr)
      (o := step { withHost beforeT2 [.reset, .busUse] with berr := true }) (by decide)
    exact ⟨t, h, by simpa using p⟩

/-- A state in the middle of a cycle, with a result in OUT and a refused command behind it. -/
def midCycle : State :=
  { start (.script []) with
    wslot := 2, out := [(0, 0x0D#8), (11, 0x80#8)], lref := true, host := [.command 0x4000#16]
    winWritten := Vector.replicate 4 ⟨#[true, true, false, false, false], rfl⟩ }

theorem witness_stepKeepsInvariants : midCycle.Inv ∧ ∃ t, step midCycle = .next t := by
  refine ⟨⟨by decide, by decide, by decide +kernel, ?_, ?_, by decide, by decide, by decide, by decide⟩, ?_⟩
  · unfold filterOutput
    decide +kernel
  · intro x j h g
    change j < 3 + 0 at g
    omega
  · obtain ⟨t, h, -⟩ := next_of (P := fun _ => true) (o := step midCycle) (by decide)
    exact ⟨t, h⟩

/-- Histories after an acknowledged, a failed and no selection, each with a next step. -/
theorem witness_stepKeepsCurportTrue :
    some 6#3 = lastSelected [.write 0x70#7 0x40#8 true .ack, .write 0x4C#7 0x0E#8 false .nack] ∧
    none = lastSelected [.write 0x70#7 0x40#8 true .ack, .write 0x70#7 0x01#8 true .nack] ∧ none = lastSelected [] ∧
    ∃ t, step (withHost (start (sensors [])) [.command 0x5000#16]) = .next t := by
  refine ⟨by decide, by decide, by decide, ?_⟩
  obtain ⟨t, h, -⟩ := next_of (P := fun _ => true) (o := step (withHost (start (sensors [])) [.command 0x5000#16]))
    (by decide +kernel)
  exact ⟨t, h⟩

theorem witness_stepKeepsParameters : ∃ t, step stuckWaiting = .next t := by
  obtain ⟨t, h, -⟩ := next_of (P := fun _ => true) (o := step stuckWaiting) (by decide)
  exact ⟨t, h⟩

/-! ### The environment -/

/-- The reference environment of 2.5 with the routing on a port. -/
def routed (m : Option Byte) : RefEnv :=
  match sensors [] with
  | .reference e => { e with muxsel := m }
  | .script _ => ⟨none, Vector.replicate 8 none, [], 0, 0⟩

/-- A port with a device (6), from CURPORT none and from CURPORT = some(6), and one without (7). -/
theorem witness_referenceEnvironmentRead :
    (start (.reference (routed none))).idle ∧ (routed none).deviations = [] ∧
    (start (.reference (routed none))).curport ≠ some 6#3 ∧
    (routed (some 0x40#8)).muxsel = some (mask 6#3) ∧
    (routed none).devices[6] = some (accel 0x14#8 0xEC#8 0x40#8) ∧ (routed none).devices[7] = none := by decide +kernel

/-- CURPORT says 5, the routing is on port 0. -/
theorem witness_wrongRoutingReadsWrongSensor :
    { start (.reference (routed (some 0x01#8))) with curport := some 5#3 }.idle ∧
    (routed (some 0x01#8)).deviations = [] ∧
    (routed (some 0x01#8)).muxsel = some (mask 0#3) ∧
    (routed (some 0x01#8)).devices[0] = some (accel 0x05#8 0xF7#8 0x0A#8) := by decide +kernel

end Sys2Proof.Tests
end

section
/-! PROOFS. What a command that uses the bus ends with, and what SELPORT, RDREG, ACQ, RUN and FILT leave unchanged (10_state R35). -/

namespace Sys2Proof.Machine

/-! ### The ends of a command -/

/-- An accepted command that does bus primitives (`core`) and then stores what it read or filtered (`post`): either the
primitives completed, and the result was stored and answered, or they hung, and nothing was stored (R118, R199). -/
theorem execute_bind_next {α : Type} {core : State → Flow α} {data : α → Byte} {post : α → State → State} {s t : State}
    (h : execute (fun u => (core u).bind fun a v => .done (data a) (post a v)) s = .next t)
    (htrace : ∃ e, FlowTrace s.acceptFlags (core s.acceptFlags) e) :
    (∃ a u e, core s.acceptFlags = .done a u ∧ Trace s.acceptFlags u e ∧ u.stuck = false ∧
      t = (post a u).respond (responseWord false (post a u).lberr (data a))) ∨
    (∃ e, core s.acceptFlags = .hung t ∧ Trace s.acceptFlags t e) := by
  obtain ⟨hs, rfl⟩ := execute_next.1 h
  obtain ⟨e, he⟩ := htrace
  cases hc : core s.acceptFlags with
  | done a u =>
    rw [hc] at he
    have hu : u.stuck = false := by
      have := he.trace.stuck
      simpa [hs, he.stalled] using this
    exact Or.inl ⟨a, u, e, rfl, he.trace, hu, rfl⟩
  | hung u =>
    rw [hc] at he
    exact Or.inr ⟨e, rfl, he.trace⟩

theorem exec_selport_next {p : Port} {s t : State} (h : exec (.selport p) s = .next t) :
    (∃ b u e, select p s.acceptFlags = .done b u ∧ Trace s.acceptFlags u e ∧ u.stuck = false ∧
      t = u.respond (responseWord false u.lberr 0#8)) ∨
    (∃ e, select p s.acceptFlags = .hung t ∧ Trace s.acceptFlags t e) :=
  execute_bind_next (core := select p) (data := fun _ => 0#8) (post := fun _ u => u) h ⟨_, select_trace p _⟩

theorem exec_rdreg_next {p : Port} {r : Byte} {s t : State} (h : exec (.rdreg p r) s = .next t) :
    (∃ b u e, readReg p r s.acceptFlags = .done b u ∧ Trace s.acceptFlags u e ∧ u.stuck = false ∧
      t = (u.setRdata b).respond (responseWord false u.lberr b)) ∨
    (∃ e, readReg p r s.acceptFlags = .hung t ∧ Trace s.acceptFlags t e) :=
  execute_bind_next (core := readReg p r) (data := fun b => b) (post := fun b u => u.setRdata b) h (readReg_trace p r _)

theorem exec_acq_next {s t : State} (h : exec .acq s = .next t) :
    (∃ a u e, acqRound s.acceptFlags = .done a u ∧ Trace s.acceptFlags u e ∧ u.stuck = false ∧
      t = u.respond (responseWord false u.lberr 0#8)) ∨
    (∃ e, acqRound s.acceptFlags = .hung t ∧ Trace s.acceptFlags t e) :=
  execute_bind_next (core := acqRound) (data := fun _ => 0#8) (post := fun _ u => u) h (acqRound_trace _)

theorem exec_run_next {s t : State} (h : exec .run s = .next t) :
    (∃ a u e, acqRounds Config.window (s.acceptFlags.setCursor 0 false) = .done a u ∧ Trace s.acceptFlags u e ∧
      u.stuck = false ∧
      t = (filtSensors allSensors u).respond (responseWord false (filtSensors allSensors u).lberr 0#8)) ∨
    (∃ e, acqRounds Config.window (s.acceptFlags.setCursor 0 false) = .hung t ∧ Trace s.acceptFlags t e) :=
  execute_bind_next (core := fun u => acqRounds Config.window (u.setCursor 0 false)) (data := fun _ => 0#8)
    (post := fun _ u => filtSensors allSensors u) h (runRounds_trace _)

theorem exec_filt_full (x : Sensor) (s : State) (hw : s.wfull = true) :
    exec (.filt x) s = execute (filtBody x) s := if_pos hw

theorem exec_filt_partial (x : Sensor) (s : State) (hw : s.wfull = false) :
    exec (.filt x) s = executeRefused s := if_neg (by simp [hw])

/-- FILT filters its sensor where WFULL = 1 and is refused where WFULL = 0 (R168). -/
theorem exec_filt_next {x : Sensor} {s t : State} (h : exec (.filt x) s = .next t) :
    (s.wfull = true ∧ t = (filtSensor x s.acceptFlags).respond (responseWord false false 0#8)) ∨
    (s.wfull = false ∧ t = refuse s) := by
  cases hw : s.wfull with
  | true =>
    rw [exec_filt_full x s hw] at h
    obtain ⟨-, rfl⟩ := execute_next.1 h
    simp [filtBody, finishCommand]
  | false =>
    rw [exec_filt_partial x s hw] at h
    obtain ⟨-, rfl⟩ := executeRefused_next.1 h
    simp

/-! ### SELPORT and RDREG -/

theorem exec_selport_sameWindow {p : Port} {s t : State} (h : exec (.selport p) s = .next t) : SameWindow s t := by
  have hw := select_sameWindow p s.acceptFlags
  rcases exec_selport_next h with ⟨b, u, e, hu, -, -, rfl⟩ | ⟨e, hu, -⟩
  all_goals
    rw [hu] at hw
    exact ⟨hw.wslot, hw.wfull, hw.win, hw.winWritten⟩

theorem exec_rdreg_sameWindow {p : Port} {r : Byte} {s t : State} (h : exec (.rdreg p r) s = .next t) :
    SameWindow s t := by
  rcases exec_rdreg_next h with ⟨b, u, e, hu, -, -, rfl⟩ | ⟨e, hu, -⟩
  · have hw := readReg_done_sameWindow hu
    exact ⟨hw.wslot, hw.wfull, hw.win, hw.winWritten⟩
  · have hw := readReg_hung_sameWindow hu
    exact ⟨hw.wslot, hw.wfull, hw.win, hw.winWritten⟩

/-- What every command on the bus leaves unchanged outside the window and RDATA, whether it completes or hangs. -/
structure BusFrame (s t : State) : Prop where
  out      : t.out = s.out
  lref     : t.lref = false
  cfg      : t.cfg = s.cfg
  host     : t.host = s.host
  regReads : t.regReads = s.regReads

theorem Trace.busFrame {s t : State} {e : List Event} (tr : Trace s.acceptFlags t e) : BusFrame s t :=
  ⟨tr.out, tr.lref, tr.cfg, tr.host, tr.regReads⟩

theorem BusFrame.setRdata {s t : State} (f : BusFrame s t) (b : Byte) : BusFrame s (t.setRdata b) :=
  ⟨f.out, f.lref, f.cfg, f.host, f.regReads⟩

theorem BusFrame.respond {s t : State} (f : BusFrame s t) (w : ResponseWord) : BusFrame s (t.respond w) :=
  ⟨f.out, f.lref, f.cfg, f.host, f.regReads⟩

theorem BusFrame.eq_of_sameWindow {s t : State} (f : BusFrame s t) (w : SameWindow s t) :
    t = { s with curport := t.curport, rdata := t.rdata, berr := t.berr, lberr := t.lberr, lref := false,
                 stuck := t.stuck, hist := t.hist, env := t.env, draws := t.draws, responses := t.responses } :=
  State.ext rfl w.wslot w.wfull w.win f.out rfl rfl rfl f.lref rfl rfl f.cfg rfl rfl w.winWritten f.host rfl f.regReads

theorem exec_selport_frame {p : Port} {s t : State} (h : exec (.selport p) s = .next t) :
    t = { s with curport := t.curport, berr := t.berr, lberr := t.lberr, lref := false, stuck := t.stuck,
                 hist := t.hist, env := t.env, draws := t.draws, responses := t.responses } := by
  obtain ⟨f, hrdata⟩ : BusFrame s t ∧ t.rdata = s.rdata := by
    rcases exec_selport_next h with ⟨b, u, e, -, tr, -, rfl⟩ | ⟨e, -, tr⟩
    · exact ⟨tr.busFrame.respond _, tr.rdata⟩
    · exact ⟨tr.busFrame, tr.rdata⟩
  exact (f.eq_of_sameWindow (exec_selport_sameWindow h)).trans (by rw [hrdata])

theorem exec_rdreg_frame {p : Port} {r : Byte} {s t : State} (h : exec (.rdreg p r) s = .next t) :
    t = { s with curport := t.curport, rdata := t.rdata, berr := t.berr, lberr := t.lberr, lref := false,
                 stuck := t.stuck, hist := t.hist, env := t.env, draws := t.draws, responses := t.responses } := by
  have f : BusFrame s t := by
    rcases exec_rdreg_next h with ⟨b, u, e, -, tr, -, rfl⟩ | ⟨e, -, tr⟩
    · exact (tr.busFrame.setRdata b).respond _
    · exact tr.busFrame
  exact f.eq_of_sameWindow (exec_rdreg_sameWindow h)

/-- RDATA is written only where the register read completed. -/
theorem exec_rdreg_hung_rdata {p : Port} {r : Byte} {s t : State} (h : exec (.rdreg p r) s = .next t)
    (hs : t.stuck = true) : t.rdata = s.rdata := by
  rcases exec_rdreg_next h with ⟨b, u, e, -, -, hu, rfl⟩ | ⟨e, -, tr⟩
  · simp [hu] at hs
  · exact tr.rdata

/-- Settles O46: both commands leave a trace, which fixes what it does not name, and the same window. -/
theorem busCommandFrame : Obligations.BusCommandFrame := by
  refine ⟨fun p s t h => ⟨exec_selport_frame h, fun a => ?_⟩,
    fun p r s t h => ⟨exec_rdreg_frame h, exec_rdreg_hung_rdata h, fun a => ?_⟩⟩
  · rw [exec_selport_frame h]
  · rw [exec_rdreg_frame h]

/-! ### ACQ -/

/-- Settles O27: the trace of the round fixes what lies outside the window; `RoundDone`, or `SlotOnly` in a hang, the rest. -/
theorem acqFrame : Obligations.AcqFrame := by
  intro s t h
  rcases exec_acq_next h with ⟨a, u, e, hu, tr, hidle, rfl⟩ | ⟨e, hu, tr⟩
  · have hround := acqRound_done hu
    exact ⟨tr.out, fun a => by simp [tr.out], tr.rdata, tr.lref, tr.cfg, tr.host, tr.regReads, hround.other,
      fun hs => by simp [hidle] at hs⟩
  · have hround := acqRound_hung hu
    exact ⟨tr.out, fun a => by simp [tr.out], tr.rdata, tr.lref, tr.cfg, tr.host, tr.regReads,
      fun x k hk => by simpa using hround.other x k hk, fun _ =>
        ⟨hround.wslot.trans (beginRound_wslot _), hround.wfull.trans (beginRound_wfull _)⟩⟩

/-! ### RUN -/

/-- Settles O45: the rounds leave OUT alone, and the filter phase writes only its twelve result bytes. -/
theorem runFrame : Obligations.RunFrame := by
  intro s t h
  rcases exec_run_next h with ⟨a, u, e, -, tr, -, rfl⟩ | ⟨e, -, tr⟩
  · have hout : ∀ a, (∀ (x : Sensor) (j : Nat), j < 3 → a ≠ outOffset s.cfg x j) →
        ((filtSensors allSensors u).respond (responseWord false (filtSensors allSensors u).lberr 0#8)).out.read a =
          s.out.read a := by
      intro a ha
      have hcfg : u.cfg = s.cfg := tr.cfg
      rw [State.respond_out, filtSensors_read_other allSensors u fun x _ j hj => by rw [hcfg]; exact ha x j hj, tr.out,
        State.acceptFlags_out]
    have f := tr.busFrame
    refine ⟨hout, ?_, ?_, ?_, ?_, ?_⟩
    · rw [State.respond_rdata, filtSensors_rdata, tr.rdata, State.acceptFlags_rdata]
    · rw [State.respond_lref, filtSensors_lref, f.lref]
    · rw [State.respond_cfg, filtSensors_cfg, f.cfg]
    · rw [State.respond_host, filtSensors_host, f.host]
    · rw [State.respond_regReads, filtSensors_regReads, f.regReads]
  · exact ⟨fun a _ => by simp [tr.out], tr.rdata, tr.lref, tr.cfg, tr.host, tr.regReads⟩

/-! ### FILT -/

theorem exec_filt_frame {x : Sensor} {s t : State} (h : exec (.filt x) s = .next t) :
    t = { s with out := t.out, lref := t.lref, lberr := false, responses := t.responses } := by
  rcases exec_filt_next h with ⟨-, rfl⟩ | ⟨-, rfl⟩
  · have hfilt := filtSensor_eq x s.acceptFlags
    generalize (filtSensor x s.acceptFlags).out = o at hfilt
    rw [hfilt]
    rfl
  · rfl

theorem exec_filt_read_other {x : Sensor} {s t : State} (h : exec (.filt x) s = .next t) {a : Nat}
    (ha : ∀ j, j < 3 → a ≠ outOffset s.cfg x j) : t.out.read a = s.out.read a := by
  rcases exec_filt_next h with ⟨-, rfl⟩ | ⟨-, rfl⟩
  · rw [State.respond_out, filtSensor_read_other x s.acceptFlags (by simpa using ha), State.acceptFlags_out]
  · rfl

/-- Settles O36: the offsets of different sensors are different, so the bytes of the others are among those kept. -/
theorem filtFrame : Obligations.FiltFrame := by
  refine fun x s t h => ⟨fun a ha => exec_filt_read_other h ha, fun y j hyx hj => ?_, exec_filt_frame h⟩
  refine exec_filt_read_other h fun i hi he => hyx ?_
  have h3 := three_le_accPackSize s.cfg
  exact (outOffset_inj s.cfg hj (by omega) he).1

end Sys2Proof.Machine
end

section
/-! PROOFS. The flags BERR, LBERR and LREF over every command (10_state R23, R30). -/

namespace Sys2Proof.Machine

/-! ### LREF, and what the flags record -/

/-- Only FILT on a window that is not full is refused (R30, R168). -/
theorem exec_lref {i : Instr} {s t : State} (h : exec i s = .next t) :
    t.lref = true ↔ s.wfull = false ∧ ∃ x, i = .filt x := by
  cases i with
  | selport p => rw [exec_selport_frame h]; simp
  | rdreg p r => rw [exec_rdreg_frame h]; simp
  | acq =>
    obtain ⟨-, -, -, hlref, -⟩ := acqFrame s t h
    simp [hlref]
  | run =>
    obtain ⟨-, -, hlref, -⟩ := runFrame s t h
    simp [hlref]
  | filt x =>
    rcases exec_filt_next h with ⟨hw, rfl⟩ | ⟨hw, rfl⟩
    · rw [State.respond_lref, filtSensor_lref]
      simp [hw]
    · simp [hw, refuse]

/-- Settles O48: the events are those of the command's trace. -/
theorem errorFlagsRecordFailures : Obligations.ErrorFlagsRecordFailures := by
  intro i s t h
  obtain ⟨e, tr⟩ := exec_trace h
  exact ⟨e, tr.hist, tr.lberr, tr.berr, exec_lref h⟩

/-! ### The flags are not read -/

/-- The state of the same command begun with BERR = `b`: the failures of the command itself are added to `b`. -/
def State.rebaseBerr (b : Bool) (s : State) : State := { s with berr := b || s.lberr }

/-- Two runs of a command that began with different flags: at each moment they differ in BERR alone. -/
def SameButBerr (b : Bool) (s t : State) : Prop := t = s.rebaseBerr b

theorem sameButBerr_roundRel (b : Bool) : RoundRel (SameButBerr b) where
  port := by rintro s t rfl; rfl
  cfg := by rintro s t rfl; rfl
  env := by rintro s t rfl; rfl
  draws := by rintro s t rfl; rfl
  logEvent := by rintro s t e v rfl; rfl
  setCurport := by rintro s t c rfl; rfl
  raise := by rintro s t rfl; simp [SameButBerr, State.rebaseBerr, State.raiseBusError]
  hang := by rintro s t rfl; rfl
  wslot := by rintro s t rfl; rfl
  wfull := by rintro s t rfl; rfl
  setCursor := by rintro s t k f rfl; rfl
  setSample := by rintro s t x k v rfl; rfl

theorem sameButBerr_filtSensor {b : Bool} {s t : State} (h : SameButBerr b s t) (x : Sensor) :
    SameButBerr b (filtSensor x s) (filtSensor x t) := by
  subst h
  have hout := filtSensor_out_congr (s := s) (t := s.rebaseBerr b) x rfl rfl rfl
  ext1
  case out => simpa [State.rebaseBerr] using hout
  all_goals simp [State.rebaseBerr]

theorem sameButBerr_filtSensors {b : Bool} (l : List Sensor) {s t : State} (h : SameButBerr b s t) :
    SameButBerr b (filtSensors l s) (filtSensors l t) := by
  induction l generalizing s t with
  | nil => exact h
  | cons x l ih => exact ih (sameButBerr_filtSensor h x)

theorem sameButBerr_finishCommand {b : Bool} {x y : Flow Byte} (h : FlowRel (SameButBerr b) (SameButBerr b) x y) :
    finishCommand y = (finishCommand x).rebaseBerr b := by
  cases x <;> cases y
  case done.done => obtain ⟨rfl, rfl⟩ := h; rfl
  case done.hung => exact h.elim
  case hung.done => exact h.elim
  case hung.hung => exact h

/-- Clearing LBERR and LREF leaves two runs that differ in BERR alone. -/
theorem sameButBerr_acceptFlags (s : State) (b l r : Bool) :
    SameButBerr b s.acceptFlags (s.withFlags b l r).acceptFlags := by
  ext1 <;> simp [State.rebaseBerr]

theorem execute_withFlags {body : State → Flow Byte} (s : State) (b l r : Bool)
    (hbody : ∀ {u v}, SameButBerr b u v → FlowRel (SameButBerr b) (SameButBerr b) (body u) (body v)) :
    execute body (s.withFlags b l r) = mapNext (State.rebaseBerr b) (execute body s) := by
  unfold execute
  rw [State.withFlags_stuck]
  split
  · rfl
  · rw [sameButBerr_finishCommand (hbody (sameButBerr_acceptFlags s b l r))]; rfl

theorem executeRefused_withFlags (s : State) (b l r : Bool) :
    executeRefused (s.withFlags b l r) = mapNext (State.rebaseBerr b) (executeRefused s) := by
  unfold executeRefused
  rw [State.withFlags_stuck]
  split
  · rfl
  · simp [mapNext, refuse, State.rebaseBerr, State.withFlags, State.refuseFlags, State.respond]

/-- Settles O47: each body keeps `SameButBerr`, by the laws of two runs side by side. -/
theorem flagsNeverInfluence : Obligations.FlagsNeverInfluence := by
  intro i s b l r
  have hrel := sameButBerr_roundRel b
  cases i with
  | selport p => exact execute_withFlags s b l r fun h => (hrel.select h p).bind fun _ _ _ g => ⟨rfl, g⟩
  | rdreg p q =>
    exact execute_withFlags s b l r fun h => (hrel.readReg h p q).bind fun d u v g =>
      ⟨rfl, congrArg (State.setRdata · d) g⟩
  | acq => exact execute_withFlags s b l r fun h => (hrel.acqRound h).bind fun _ _ _ g => ⟨rfl, g⟩
  | run =>
    exact execute_withFlags s b l r fun h => (hrel.acqRounds Config.window (hrel.setCursor 0 false h)).bind
      fun _ _ _ g => ⟨rfl, sameButBerr_filtSensors allSensors g⟩
  | filt x =>
    cases hw : s.wfull with
    | true =>
      rw [exec_filt_full x s hw, exec_filt_full x (s.withFlags b l r) hw]
      exact execute_withFlags s b l r fun {u v} h => show FlowRel _ _ (.done _ _) (.done _ _) from
        ⟨rfl, sameButBerr_filtSensor h x⟩
    | false =>
      rw [exec_filt_partial x s hw, exec_filt_partial x (s.withFlags b l r) hw]
      exact executeRefused_withFlags s b l r

end Sys2Proof.Machine
end

section
/-! PROOFS. The invariants of 10_state R34 over every command: those of the window, of OUT and of the flags apart. -/

namespace Sys2Proof.Machine

/-! ### The window (R34, items 2 to 4) -/

/-- Items 2 to 4 of R34. -/
structure WindowInv (s : State) : Prop where
  fullAtZero    : s.wfull = true → s.wslot = 0
  fullWritten   : s.wfull = true → ∀ (x : Sensor) (k : Slot), Grid.get s.winWritten x k = true
  cursorWritten : ∀ (x : Sensor) (k : Slot), k < s.wslot → Grid.get s.winWritten x k = true

theorem WindowInv.congr {s t : State} (h : WindowInv s) (hslot : t.wslot = s.wslot) (hfull : t.wfull = s.wfull)
    (hwritten : t.winWritten = s.winWritten) : WindowInv t := by
  obtain ⟨h2, h3, h4⟩ := h
  rw [← hslot, ← hfull] at h2
  rw [← hfull, ← hwritten] at h3
  rw [← hslot, ← hwritten] at h4
  exact ⟨h2, h3, h4⟩

theorem SameWindow.windowInv {s t : State} (h : SameWindow s t) (hi : WindowInv s) : WindowInv t :=
  hi.congr h.wslot h.wfull h.winWritten

theorem WindowInv.respond {s : State} (hi : WindowInv s) (w : ResponseWord) : WindowInv (s.respond w) :=
  hi.congr rfl rfl rfl

theorem WindowInv.filtSensors {s : State} (hi : WindowInv s) (l : List Sensor) : WindowInv (filtSensors l s) :=
  hi.congr (filtSensors_wslot l s) (filtSensors_wfull l s) (filtSensors_winWritten l s)

/-- At the start of a fresh cycle nothing has to be written (R169). -/
theorem windowInv_setCursor_zero (s : State) : WindowInv (s.setCursor 0 false) where
  fullAtZero := by simp
  fullWritten := by simp
  cursorWritten := by simp

/-- The slots up to the one a round writes: those below were written before, by item 4. -/
theorem RoundDone.written_le {s t : State} (h : RoundDone s t) (hi : WindowInv s) (x : Sensor) (k : Slot)
    (hk : k ≤ s.wslot) : Grid.get t.winWritten x k = true := by
  rcases hk.lt_or_eq with hlt | rfl
  · exact h.keeps x k (hi.cursorWritten x k hlt)
  · exact h.writes x

/-- A round that completes leaves WFULL set only where it wrote slot 4: WFULL was not set in the middle of a cycle. -/
theorem RoundDone.full_at_four {s t : State} (h : RoundDone s t) (hi : WindowInv s) (hf : t.wfull = true) :
    s.wslot = 4 := by
  by_contra h4
  rw [h.wfull, if_neg h4] at hf
  by_cases h0 : s.wslot = 0
  · simp [h0] at hf
  · rw [if_neg h0] at hf
    exact h0 (hi.fullAtZero hf)

theorem RoundDone.windowInv {s t : State} (h : RoundDone s t) (hi : WindowInv s) : WindowInv t where
  fullAtZero hf := by rw [h.wslot, if_pos (h.full_at_four hi hf)]
  fullWritten hf x k := h.written_le hi x k (by rw [h.full_at_four hi hf]; exact Fin.le_last k)
  cursorWritten x k hk := by
    have below : ∀ a j : Slot, (j < if a = 4 then 0 else a + 1) → j ≤ a := by decide
    exact h.written_le hi x k (below _ _ (h.wslot ▸ hk))

/-- A round that hangs leaves the cursor, and WFULL is 0 where it stood on slot 0 (R142). -/
theorem windowInv_of_hung_round {s t : State} (h : SlotOnly s.wslot (beginRound s) t) (hi : WindowInv s) :
    WindowInv t := by
  have hslot : t.wslot = s.wslot := h.wslot.trans (beginRound_wslot s)
  have notFull : t.wfull = false := by
    rw [h.wfull, beginRound_wfull]
    by_cases h0 : s.wslot = 0
    · simp [h0]
    · rw [if_neg h0]
      exact Bool.eq_false_iff.2 fun hf => h0 (hi.fullAtZero hf)
  refine ⟨by simp [notFull], by simp [notFull], fun x k hk => ?_⟩
  rw [hslot] at hk
  exact h.keeps x k (by simpa using hi.cursorWritten x k hk)

theorem acqRound_windowInv {s : State} (hi : WindowInv s) : WindowInv (acqRound s).state := by
  cases h : acqRound s with
  | done a t => exact (acqRound_done h).windowInv hi
  | hung t => exact windowInv_of_hung_round (acqRound_hung h) hi

theorem acqRounds_windowInv (n : Nat) {s : State} (hi : WindowInv s) : WindowInv (acqRounds n s).state := by
  induction n generalizing s with
  | zero => exact hi
  | succ n ih =>
    have hround := acqRound_windowInv hi
    unfold acqRounds
    cases h : acqRound s with
    | done a t => rw [h] at hround; exact ih hround
    | hung t => rw [h] at hround; exact hround

theorem exec_windowInv {i : Instr} {s t : State} (h : exec i s = .next t) (hi : WindowInv s) : WindowInv t := by
  cases i with
  | selport p => exact (exec_selport_sameWindow h).windowInv hi
  | rdreg p r => exact (exec_rdreg_sameWindow h).windowInv hi
  | filt x =>
    rw [exec_filt_frame h]
    exact hi.congr rfl rfl rfl
  | acq =>
    have hround := acqRound_windowInv (s := s.acceptFlags) (hi.congr rfl rfl rfl)
    rcases exec_acq_next h with ⟨a, u, e, hu, -, -, rfl⟩ | ⟨e, hu, -⟩
    · rw [hu] at hround; exact hround.respond _
    · rw [hu] at hround; exact hround
  | run =>
    have hrounds := acqRounds_windowInv Config.window (windowInv_setCursor_zero s.acceptFlags)
    rcases exec_run_next h with ⟨a, u, e, hu, -, -, rfl⟩ | ⟨e, hu, -⟩
    · rw [hu] at hrounds; exact (hrounds.filtSensors allSensors).respond _
    · rw [hu] at hrounds; exact hrounds

/-! ### OUT (R34, item 5) -/

theorem axisSum_range (v0 v1 v2 v3 v4 : I8) : -640 ≤ axisSum v0 v1 v2 v3 v4 ∧ axisSum v0 v1 v2 v3 v4 ≤ 635 := by
  have low (v : I8) : -128 ≤ v.toInt := by simpa using BitVec.le_toInt v
  have high (v : I8) : v.toInt < 128 := by simpa using BitVec.toInt_lt (x := v)
  have := low v0; have := low v1; have := low v2; have := low v3; have := low v4
  have := high v0; have := high v1; have := high v2; have := high v3; have := high v4
  unfold axisSum
  omega

/-- The filter's integer result from a sum in range fits a signed byte and is never strictly between 0 and ±10 (R166). -/
theorem filterSum_range {sum : Int} (hlow : -640 ≤ sum) (hhigh : sum ≤ 635) :
    -128 ≤ filterSum sum ∧ filterSum sum ≤ 127 ∧
      (filterSum sum = 0 ∨ 10 ≤ filterSum sum ∨ filterSum sum ≤ -10) := by
  unfold filterSum sat8 Config.deadSum
  split <;> omega

theorem filterOutput_filterAxis (v0 v1 v2 v3 v4 : I8) : filterOutput (filterAxis v0 v1 v2 v3 v4) := by
  obtain ⟨hlow, hhigh⟩ := axisSum_range v0 v1 v2 v3 v4
  obtain ⟨hmin, hmax, hresult⟩ := filterSum_range hlow hhigh
  have hbyte : (filterAxis v0 v1 v2 v3 v4).toInt = filterSum (axisSum v0 v1 v2 v3 v4) :=
    BitVec.toInt_ofInt_eq_self (by decide) hmin (by omega)
  rwa [filterOutput, hbyte]

/-- Item 5 of R34, and the canonical form and bounds of OUT, for the bytes `m` under the parameters `c`. -/
structure OutInv (c : Params) (m : Memory) : Prop where
  results   : ∀ (x : Sensor) (j : Nat), j < 3 → filterOutput (m.read (outOffset c x j))
  padding   : ∀ (x : Sensor) (j : Nat), 3 ≤ j → j < c.accPackSize → m.read (outOffset c x j) = 0#8
  canonical : m.wf
  bounded   : ∀ d ∈ m, d.1 < c.sockPackSize

theorem outInv_nil (c : Params) : OutInv c [] where
  results _ _ _ := Or.inl rfl
  padding _ _ _ _ := rfl
  canonical := ⟨.nil, by simp⟩
  bounded := by simp

/-- A result byte of the filter, stored at one of its offsets, keeps OUT good. -/
theorem OutInv.write {c : Params} {m : Memory} (h : OutInv c m) (x : Sensor) {j : Nat} (hj : j < 3) {b : Byte}
    (hb : filterOutput b) : OutInv c (m.write (outOffset c x j) b) := by
  have h3 := three_le_accPackSize c
  refine ⟨fun y i hi => ?_, fun y i hi hsize => ?_, Memory.write_wf m _ b h.canonical, fun d hd => ?_⟩
  · rw [Memory.read_write]
    split
    · exact hb
    · exact h.results y i hi
  · have hne : outOffset c x j ≠ outOffset c y i := fun e => by
      have := (outOffset_inj c (by omega) hsize e).2
      omega
    rw [Memory.read_write_other m b hne, h.padding y i hi hsize]
  · rcases Memory.mem_write m _ b d hd with he | hd
    · rw [he]; exact outOffset_lt c x (by omega)
    · exact h.bounded d hd

theorem filtSensor_outInv (x : Sensor) {s : State} (h : OutInv s.cfg s.out) : OutInv s.cfg (filtSensor x s).out := by
  simp only [filtSensor, State.setOut_out]
  exact ((h.write x (by omega) (filterOutput_filterAxis ..)).write x (by omega) (filterOutput_filterAxis ..)).write x
    (by omega) (filterOutput_filterAxis ..)

theorem filtSensors_outInv (l : List Sensor) {s : State} (h : OutInv s.cfg s.out) :
    OutInv s.cfg (filtSensors l s).out := by
  induction l generalizing s with
  | nil => exact h
  | cons x l ih =>
    have hx := ih (s := filtSensor x s) (by simpa using filtSensor_outInv x h)
    rwa [filtSensor_cfg] at hx

theorem respond_outInv {s : State} (h : OutInv s.cfg s.out) (w : ResponseWord) :
    OutInv (s.respond w).cfg (s.respond w).out := h

theorem exec_outInv {i : Instr} {s t : State} (h : exec i s = .next t) (hi : OutInv s.cfg s.out) :
    OutInv t.cfg t.out := by
  cases i with
  | selport p => rw [exec_selport_frame h]; exact hi
  | rdreg p r => rw [exec_rdreg_frame h]; exact hi
  | acq =>
    obtain ⟨hout, -, -, -, hcfg, -⟩ := acqFrame s t h
    rwa [hout, hcfg]
  | filt x =>
    rcases exec_filt_next h with ⟨-, rfl⟩ | ⟨-, rfl⟩
    · refine respond_outInv ?_ _
      rw [filtSensor_cfg]
      exact filtSensor_outInv x (s := s.acceptFlags) hi
    · exact hi
  | run =>
    rcases exec_run_next h with ⟨a, u, e, -, tr, -, rfl⟩ | ⟨e, -, tr⟩
    · have hu : OutInv u.cfg u.out := by rw [tr.cfg, tr.out]; exact hi
      refine respond_outInv ?_ _
      rw [filtSensors_cfg]
      exact filtSensors_outInv allSensors hu
    · rw [tr.cfg, tr.out]; exact hi

/-! ### The flags (R34, item 6), and all together -/

/-- Item 6 of R34. -/
structure FlagInv (s : State) : Prop where
  refusedNoError : s.lref = true → s.lberr = false
  errorSticky    : s.lberr = true → s.berr = true

/-- A refused command does no bus primitive, so none of its primitives failed. -/
theorem exec_lref_no_error {i : Instr} {s t : State} (h : exec i s = .next t) (hr : t.lref = true) :
    t.lberr = false := by
  obtain ⟨-, x, rfl⟩ := (exec_lref h).1 hr
  rw [exec_filt_frame h]

theorem exec_flagInv {i : Instr} {s t : State} (h : exec i s = .next t) : FlagInv t := by
  obtain ⟨e, tr⟩ := exec_trace h
  refine ⟨exec_lref_no_error h, fun hl => ?_⟩
  rw [tr.berr, ← tr.lberr, hl, Bool.or_true]

theorem State.inv_iff {s : State} : s.Inv ↔ WindowInv s ∧ OutInv s.cfg s.out ∧ FlagInv s := by
  constructor
  · intro h
    exact ⟨⟨h.fullAtZero, h.fullWritten, h.cursorWritten⟩,
      ⟨h.outResults, h.outPadding, h.outCanonical, h.outBounded⟩, ⟨h.refusedNoError, h.errorSticky⟩⟩
  · rintro ⟨hw, ho, hf⟩
    exact ⟨hw.fullAtZero, hw.fullWritten, hw.cursorWritten, ho.results, ho.padding, hf.refusedNoError, hf.errorSticky,
      ho.canonical, ho.bounded⟩

theorem exec_inv {i : Instr} {s t : State} (h : exec i s = .next t) (hi : s.Inv) : t.Inv := by
  obtain ⟨hw, ho, -⟩ := State.inv_iff.1 hi
  exact State.inv_iff.2 ⟨exec_windowInv h hw, exec_outInv h ho, exec_flagInv h⟩

theorem refuse_inv {s : State} (hi : s.Inv) : (refuse s).Inv := by
  obtain ⟨hw, ho, -⟩ := State.inv_iff.1 hi
  exact State.inv_iff.2 ⟨hw.congr rfl rfl rfl, ho, by simp [refuse], by simp [refuse]⟩

theorem resetBlock_inv (s : State) : s.resetBlock.Inv :=
  State.inv_iff.2 ⟨windowInv_setCursor_zero s.resetBlock, outInv_nil s.cfg, fun _ => rfl, fun h => nomatch h⟩

/-- The invariants do not speak of what lies outside the block. -/
theorem State.Inv.outside {s : State} (hi : s.Inv) (env : Env) (host : List HostAction) (reads : List (Byte × Byte)) :
    { s with env := env, host := host, regReads := reads }.Inv := by
  obtain ⟨hw, ho, hf⟩ := State.inv_iff.1 hi
  exact State.inv_iff.2 ⟨hw.congr rfl rfl rfl, ho, hf.refusedNoError, hf.errorSticky⟩

/-- Settles O53: resetting the reset state gives it again, and every reset establishes the invariants. -/
theorem invariantsAtReset : Obligations.InvariantsAtReset := resetBlock_inv State.reset

end Sys2Proof.Machine
end

section
/-! PROOFS. What every step keeps (10_state R24, R30, R32, R34). -/

namespace Sys2Proof.Machine

/-- What is kept by every command, every refusal and reset, and does not speak of what lies outside the block. -/
structure Kept (P : State → Prop) : Prop where
  exec    : ∀ {i s t}, P s → exec i s = .next t → P t
  refuse  : ∀ {s}, P s → P (refuse s)
  reset   : ∀ {s}, P s → P s.resetBlock
  outside : ∀ {s} (env : Env) (host : List HostAction) (reads : List (Byte × Byte)), P s →
    P { s with env := env, host := host, regReads := reads }

/-- Every step is one of these, after an action is taken off the host's list. -/
theorem Kept.step {P : State → Prop} (k : Kept P) {s t : State} (hs : P s) (h : step s = .next t) : P t := by
  have taken (host : List HostAction) : P { s with host := host } := k.outside s.env host s.regReads hs
  rcases step_cases h with ⟨-, -, rfl⟩ | ⟨-, -, rfl⟩ | ⟨w, rest, i, -, -, -, h⟩ | ⟨w, rest, r, -, -, -, rfl⟩ |
    ⟨a, rest, -, -, -, rfl⟩
  · exact k.outside (.script []) _ s.regReads (k.reset (taken _))
  · exact hs
  · exact k.exec (taken rest) h
  · exact k.refuse (taken rest)
  · cases a with
    | command w => exact taken rest
    | readReg a => exact k.outside s.env rest _ (taken rest)
    | reset => exact k.reset (taken rest)
    | resetDuringCommand => exact k.outside (.script []) rest s.regReads (k.reset (taken rest))
    | busUse => exact taken rest
    | rawRoute m => exact k.outside _ rest s.regReads (taken rest)

theorem kept_inv : Kept State.Inv where
  exec hs h := exec_inv h hs
  refuse := refuse_inv
  reset _ := resetBlock_inv _
  outside env host reads hs := hs.outside env host reads

/-- Settles O54: every command keeps the invariants of the window, of OUT and of the flags; reset establishes them. -/
theorem stepKeepsInvariants : Obligations.StepKeepsInvariants := fun _ _ hs h => kept_inv.step hs h

/-- A command's trace tells CURPORT and H from the same primitives (R24). -/
theorem kept_curport : Kept fun s => s.curport = lastSelected s.hist where
  exec hs h := by
    obtain ⟨e, tr⟩ := exec_trace h
    rw [tr.curport, tr.hist, lastSelected_append, hs]
  refuse hs := hs
  reset _ := rfl
  outside _ _ _ hs := hs

/-- Settles O55: after a command by its trace, after a reset because H is empty. -/
theorem stepKeepsCurportTrue : Obligations.StepKeepsCurportTrue := fun _ _ hs h => kept_curport.step hs h

theorem kept_cfg (c : Params) : Kept fun s => s.cfg = c where
  exec hs h := by
    obtain ⟨e, tr⟩ := exec_trace h
    rw [tr.cfg, hs]
  refuse hs := hs
  reset hs := hs
  outside _ _ _ hs := hs

/-- Settles O56: no command writes the parameters, and reset leaves them standing. -/
theorem stepKeepsParameters : Obligations.StepKeepsParameters := fun s _ h => (kept_cfg s.cfg).step rfl h

/-! ### BERR -/

theorem HostAction.isReset_iff {a : HostAction} : a.isReset = true ↔ a = .reset ∨ a = .resetDuringCommand := by
  cases a <;> simp [HostAction.isReset]

theorem exec_keeps_berr {i : Instr} {s t : State} (h : exec i s = .next t) (hb : s.berr = true) : t.berr = true := by
  obtain ⟨e, tr⟩ := exec_trace h
  rw [tr.berr, hb, Bool.true_or]

/-- Of the actions other than commands, only a reset touches BERR. -/
theorem hostAct_berr {a : HostAction} (ha : a.isReset = false) (s : State) : (hostAct a s).berr = s.berr := by
  cases a with
  | reset => cases ha
  | resetDuringCommand => cases ha
  | command w => rfl
  | readReg b => rfl
  | busUse => rfl
  | rawRoute m => rfl

theorem hostAct_host (a : HostAction) (s : State) : (hostAct a s).host = s.host := by cases a <;> rfl

/-- Settles O49: in a hang the first pending reset is taken; on an idle block every step but a reset keeps BERR. -/
theorem berrClearedOnlyByReset : Obligations.BerrClearedOnlyByReset := by
  intro s t h hb hc
  rcases step_cases h with ⟨hstuck, hany, rfl⟩ | ⟨-, -, rfl⟩ | ⟨w, rest, i, -, -, -, h⟩ | ⟨w, rest, r, -, -, -, rfl⟩ |
    ⟨a, rest, -, hhost, -, rfl⟩
  · obtain ⟨a, ha, hreset⟩ := List.any_eq_true.1 hany
    obtain ⟨a, before, after, -, hreset, hsplit, herase⟩ := List.exists_of_eraseP ha hreset
    exact ⟨a, before, after, HostAction.isReset_iff.1 hreset, hsplit, herase, fun hidle => by simp [hidle] at hstuck⟩
  · simp [hb] at hc
  · have hkept := exec_keeps_berr h hb
    simp [hkept] at hc
  · simp [refuse, hb] at hc
  · cases hreset : a.isReset with
    | true => exact ⟨a, [], rest, HostAction.isReset_iff.1 hreset, hhost, hostAct_host a _, fun _ => rfl⟩
    | false =>
      rw [hostAct_berr hreset] at hc
      simp [hb] at hc

end Sys2Proof.Machine
end

section
/-! PROOFS. The host's view (10_state R36 to R38): the register map, a register read, the reset values. -/

namespace Sys2Proof.Machine

/-! ### The bytes that show flags, CURPORT and WSLOT -/

theorem statusByte_bits (s : State) :
    (statusByte s).getLsbD 0 = s.wfull ∧ (statusByte s).getLsbD 1 = s.berr ∧ (statusByte s).getLsbD 2 = s.lberr ∧
      (statusByte s).getLsbD 3 = s.lref ∧ (statusByte s).extractLsb' 4 4 = 0#4 := by
  unfold statusByte
  generalize s.wfull = f, s.berr = b, s.lberr = l, s.lref = r
  revert f b l r
  decide

theorem curportByte_some (p : Port) :
    (curportByte (some p)).extractLsb' 0 3 = p ∧ (curportByte (some p)).getLsbD 3 = true := by
  revert p; decide

theorem curportByte_high (c : Option Port) : (curportByte c).extractLsb' 4 4 = 0#4 := by
  cases c with
  | none => rfl
  | some p => revert p; decide

theorem slotByte_fields (k : Slot) :
    ((BitVec.ofNat 8 k).extractLsb' 0 3).toNat = k.val ∧ (BitVec.ofNat 8 k).extractLsb' 3 5 = 0#5 := by
  revert k; decide

/-! ### The map above RDATA -/

/-- Above the four registers the map is OUT from 0x10 on, and 0 elsewhere. -/
theorem readRegister_above (s : State) {a : Byte} (ha : 4 ≤ a.toNat) :
    readRegister s a =
      if 0x10 ≤ a.toNat ∧ a.toNat < 0x10 + s.cfg.sockPackSize then s.out.read (a.toNat - 0x10) else 0#8 := by
  have below : ∀ b : Byte, b.toNat < 4 → a ≠ b := by
    rintro b hb rfl
    omega
  unfold readRegister
  rw [if_neg (below 0x00#8 (by decide)), if_neg (below 0x01#8 (by decide)), if_neg (below 0x02#8 (by decide)),
    if_neg (below 0x03#8 (by decide))]

theorem readRegister_out (s : State) {a : Byte} {i : Nat} (hi : i < s.cfg.sockPackSize) (ha : a.toNat = 0x10 + i) :
    readRegister s a = s.out.read i := by
  rw [readRegister_above s (by omega), if_pos (by omega), ha, Nat.add_sub_cancel_left]

theorem readRegister_unmapped (s : State) {a : Byte} (h4 : 4 ≤ a.toNat)
    (ha : a.toNat < 0x10 ∨ 0x10 + s.cfg.sockPackSize ≤ a.toNat) : readRegister s a = 0#8 := by
  rw [readRegister_above s h4, if_neg (by omega)]

/-- Result byte `j` of sensor `x` on the host's side (R92). -/
theorem readRegister_result (s : State) (x : Sensor) {j : Nat} (hj : j < 3) :
    readRegister s (BitVec.ofNat 8 (0x10 + x.toNat * s.cfg.accPackSize + j)) = s.out.read (outOffset s.cfg x j) := by
  have h3 := three_le_accPackSize s.cfg
  have hlt : outOffset s.cfg x j < s.cfg.sockPackSize := outOffset_lt s.cfg x (by omega)
  have hsock := s.cfg.sockPackSize_le
  have haddr : 0x10 + x.toNat * s.cfg.accPackSize + j = 0x10 + outOffset s.cfg x j := by
    rw [outOffset, Nat.add_assoc]
  rw [haddr]
  exact readRegister_out s hlt (by rw [BitVec.toNat_ofNat]; omega)

/-- Settles O7: the four registers, and the map above them by ranges of addresses. -/
theorem registerMapContents : Obligations.RegisterMapContents := by
  intro s
  have hcurport : readRegister s 0x01#8 = curportByte s.curport := rfl
  refine ⟨statusByte_bits s, ⟨fun p hp => ?_, fun hp => ?_, curportByte_high s.curport⟩, slotByte_fields s.wslot, rfl,
    fun a h4 hF => readRegister_unmapped s h4 (by omega), fun a i hi ha => readRegister_out s hi ha,
    fun a ha => readRegister_unmapped s (by omega) (Or.inr ha), fun i hi => ?_, fun x j hj => readRegister_result s x hj⟩
  · rw [hcurport, hp]; exact curportByte_some p
  · rw [hcurport, hp]; rfl
  · have hsock := s.cfg.sockPackSize_le
    omega

/-! ### A register read, and the reset values -/

theorem step_readReg {s : State} {a : Byte} {rest : List HostAction} (hs : s.idle) (hh : s.host = .readReg a :: rest) :
    step s = .next { s with host := rest, regReads := s.regReads ++ [(a, readRegister s a)] } := by
  unfold step
  rw [if_neg (by simp [hs]), hh]
  rfl

/-- Settles O8: the only step of a stuck block is a reset, which keeps the record. -/
theorem registerReadHasNoSideEffect : Obligations.RegisterReadHasNoSideEffect := by
  refine ⟨fun s a rest hs hh => step_readReg hs hh, fun s t hs h => ?_⟩
  rcases step_cases h with ⟨-, -, rfl⟩ | ⟨hf, -⟩ | ⟨w, rest, i, hf, -⟩ | ⟨w, rest, r, hf, -⟩ | ⟨a, rest, hf, -⟩
  case inl => rfl
  all_goals simp [hs] at hf

/-- Settles O9: the values stand in `State.reset`. -/
theorem resetValues : Obligations.ResetValues :=
  ⟨rfl, rfl, rfl, Memory.read_nil, rfl, rfl, rfl, rfl, rfl, rfl⟩

end Sys2Proof.Machine
end

section
/-! PROOFS. The bus as memory (20_memory R56, R63, R65): what other masters leave unchanged, and what a register read
returns in the reference environment. -/

namespace Sys2Proof.Machine

/-! ### Other masters -/

/-- An idle block's step on a host action other than a command. -/
theorem step_hostAct {s : State} {a : HostAction} {rest : List HostAction} (hs : s.idle) (hh : s.host = a :: rest)
    (ha : ∀ w, a ≠ .command w) : step s = .next (hostAct a { s with host := rest }) := by
  unfold step
  rw [if_neg (by simp [hs]), hh]
  cases a with
  | command w => exact absurd rfl (ha w)
  | readReg _ | reset | resetDuringCommand | busUse | rawRoute _ => rfl

/-- Settles O12: `hostAct` leaves the block alone for both actions. -/
theorem otherMasterLeavesBlock : Obligations.OtherMasterLeavesBlock := by
  intro s a rest hs hh
  refine ⟨?_, fun m => ?_⟩
  · rintro rfl
    exact step_hostAct hs hh (by simp)
  · rintro rfl
    exact ⟨s.env.reroute m, step_hostAct hs hh (by simp)⟩

/-! ### The reference environment's own answers -/

/-- No deviation is scripted, and the multiplexer connects port `q`. -/
structure RefEnv.RoutedTo (e : RefEnv) (q : Port) : Prop where
  deviations : e.deviations = []
  muxsel     : e.muxsel = some (mask q)

variable {c : Params} {e : RefEnv} {q : Port}

theorem RefEnv.deviation_of_nil (h : e.deviations = []) (isRead : Bool) : e.deviation isRead = none := by
  simp [RefEnv.deviation, h]

theorem RefEnv.RoutedTo.connected (h : e.RoutedTo q) :
    e.connected = (e.devices[q.toNat]'q.isLt).map fun d => (q, d) := by
  have hport : e.connectedPort = some q := by
    rw [RefEnv.connectedPort, h.muxsel, ← mask_find q]
    congr 1
    funext p
    exact BEq.comm
  rw [RefEnv.connected, hport]

theorem RefEnv.answerWrite_control (h : e.deviations = []) (b : Byte) :
    e.answerWrite c c.muxAddr b true = (.ack, { e with writes := e.writes + 1, muxsel := some b }) := by
  simp [RefEnv.answerWrite, RefEnv.deviation_of_nil h, RefEnv.acknowledges, RefEnv.acknowledged]

/-- A register address sets the pointer of the connected accelerometer. -/
theorem RefEnv.RoutedTo.answerWrite_device (h : e.RoutedTo q) {d : Device}
    (hd : e.devices[q.toNat]'q.isLt = some d) (r : Byte) :
    e.answerWrite c c.accAddr r false =
      (.ack, { e with writes := e.writes + 1 }.setDevice q { d with pointer := r }) := by
  have hc : e.connected = some (q, d) := by rw [h.connected, hd]; rfl
  have hc' : { e with writes := e.writes + 1 }.connected = some (q, d) := hc
  simp [RefEnv.answerWrite, RefEnv.deviation_of_nil h.deviations, RefEnv.acknowledges, RefEnv.acknowledged, hc, hc']

theorem RefEnv.RoutedTo.answerWrite_empty (h : e.RoutedTo q) (hd : e.devices[q.toNat]'q.isLt = none) (r : Byte) :
    (e.answerWrite c c.accAddr r false).1 = .nack := by
  have hc : e.connected = none := by rw [h.connected, hd]; rfl
  simp [RefEnv.answerWrite, RefEnv.deviation_of_nil h.deviations, RefEnv.acknowledges, hc]

theorem RefEnv.RoutedTo.answerRead_device (h : e.RoutedTo q) {d : Device}
    (hd : e.devices[q.toNat]'q.isLt = some d) : (e.answerRead c c.accAddr).1 = .ok d.read.1 := by
  have hc : e.connected = some (q, d) := by rw [h.connected, hd]; rfl
  simp [RefEnv.answerRead, RefEnv.deviation_of_nil h.deviations, hc]

/-! ### ReadReg in the reference environment -/

variable {s : State} {p : Port}

/-- Whatever CURPORT says, the register phases return the byte of the accelerometer really connected (R65). -/
theorem registerPhases_device (he : s.env = .reference e) (h : e.RoutedTo q) {d : Device}
    (hd : e.devices[q.toNat]'q.isLt = some d) (r : Byte) :
    registerPhases r s = .done ((d.values r).headD 0#8)
      ((s.afterWrite s.cfg.accAddr r false).afterRead s.cfg.accAddr) := by
  have hw := h.answerWrite_device (c := s.cfg) hd r
  have hack : s.writeAnswer s.cfg.accAddr r false = .ack := by simp [State.writeAnswer, he, Env.answerWrite, hw]
  have hpointed : RefEnv.RoutedTo ({ e with writes := e.writes + 1 }.setDevice q { d with pointer := r }) q :=
    ⟨h.deviations, h.muxsel⟩
  have hbyte : (s.afterWrite s.cfg.accAddr r false).readAnswer s.cfg.accAddr = .ok ((d.values r).headD 0#8) := by
    simp only [State.readAnswer, State.afterWrite_env, State.afterWrite_cfg, he, Env.answerWrite, Env.answerRead, hw]
    exact hpointed.answerRead_device (d := { d with pointer := r }) (by simp [RefEnv.setDevice])
  simp [registerPhases, hack, readPhase, hbyte]

/-- On a port without a device the register address is not acknowledged (R65). -/
theorem registerPhases_empty (he : s.env = .reference e) (h : e.RoutedTo q)
    (hd : e.devices[q.toNat]'q.isLt = none) (r : Byte) :
    registerPhases r s = .done Config.sentinel (s.afterWrite s.cfg.accAddr r false).raiseBusError := by
  have hnack : s.writeAnswer s.cfg.accAddr r false = .nack := by
    simp [State.writeAnswer, he, Env.answerWrite, h.answerWrite_empty hd]
  simp [registerPhases, hnack]

/-- Where CURPORT is true of the routing, the selection of `ReadReg` succeeds, made or skipped (R56, R112). -/
theorem ensurePort_reference (he : s.env = .reference e) (hd : e.deviations = [])
    (hcur : s.curport = some p → e.muxsel = some (mask p)) :
    ∃ t f, ensurePort p s = .done true t ∧ t.env = .reference f ∧ f.RoutedTo p ∧ f.devices = e.devices ∧
      t.curport = some p ∧ t.stuck = s.stuck ∧ t.lberr = s.lberr := by
  by_cases hp : s.curport = some p
  · exact ⟨s, e, by simp [ensurePort, hp], he, ⟨hd, hcur hp⟩, rfl, hp, rfl, rfl⟩
  · have hw := RefEnv.answerWrite_control (c := s.cfg) hd (mask p)
    have hack : s.writeAnswer s.cfg.muxAddr (mask p) true = .ack := by
      simp [State.writeAnswer, he, Env.answerWrite, hw]
    exact ⟨(s.afterWrite s.cfg.muxAddr (mask p) true).setCurport (some p),
      { e with writes := e.writes + 1, muxsel := some (mask p) }, by simp [ensurePort, hp, select, hack],
      by simp [he, Env.answerWrite, hw], ⟨hd, rfl⟩, rfl, rfl, rfl, rfl⟩

/-- RDREG whose `ReadReg` completes: the byte is latched and answered (R113). -/
theorem exec_rdreg_done {r b : Byte} {t : State} (hs : s.idle) (h : readReg p r s.acceptFlags = .done b t) :
    exec (.rdreg p r) s = .next ((t.setRdata b).respond (responseWord false t.lberr b)) :=
  execute_next.2 ⟨hs, by rw [rdregBody, h]; rfl⟩

/-- Settles O58: the port is routed after the selection, and the register phases read the device on it, if any. -/
theorem referenceEnvironmentRead : Obligations.ReferenceEnvironmentRead := by
  intro p r s e hs he hdev hcur
  obtain ⟨t, f, hsel, hf, hrouted, hsame, hport, hstuck, hlberr⟩ :=
    ensurePort_reference (s := s.acceptFlags) (p := p) he hdev hcur
  have hread : readReg p r s.acceptFlags = registerPhases r t := by simp [readReg, hsel]
  have hidle : t.stuck = false := hstuck.trans hs
  have hdevice : f.devices[p.toNat]'p.isLt = e.devices[p.toNat]'p.isLt := by simp only [hsame]
  cases hd : e.devices[p.toNat]'p.isLt with
  | some d =>
    have hdone := exec_rdreg_done hs (hread.trans (registerPhases_device hf hrouted (hdevice.trans hd) r))
    exact ⟨_, hdone, hidle, hport, by rintro _ ⟨⟩; simp [hlberr], by simp⟩
  | none =>
    have hdone := exec_rdreg_done hs (hread.trans (registerPhases_empty hf hrouted (hdevice.trans hd) r))
    exact ⟨_, hdone, hidle, hport, by simp, by simp [Config.sentinel]⟩

end Sys2Proof.Machine
end

section
/-! PROOFS. The decoder and the encoder (30_encoding R82 to R84, R87, R93), by the fields of a command word. -/

namespace Sys2Proof

/-! ### A command word by its fields (R81) -/

theorem CommandWord.toNat_eq_fields (w : CommandWord) :
    w.toNat = 0x1000 * w.op.toNat + 0x800 * w.z.toNat + 0x100 * w.a.toNat + w.reg.toNat := by
  have hw := w.isLt
  simp only [op, z, a, reg, BitVec.extractLsb'_toNat, Nat.shiftRight_eq_div_pow]
  omega

theorem CommandWord.eq_iff_fields {w v : CommandWord} :
    w = v ↔ w.op = v.op ∧ w.z = v.z ∧ w.a = v.a ∧ w.reg = v.reg := by
  refine ⟨by rintro rfl; simp, fun ⟨hop, hz, ha, hreg⟩ => BitVec.eq_of_toNat_eq ?_⟩
  rw [toNat_eq_fields w, toNat_eq_fields v, hop, hz, ha, hreg]

/-- Every row of the table looks at OP and bit 11 whole, and its match has zero bits below OP (R82). -/
theorem CommandWord.and_eq_iff_fields {w m v : CommandWord} (hop : m.op = BitVec.allOnes 4)
    (hz : m.z = BitVec.allOnes 1) (hv : v.z = 0#1 ∧ v.a = 0#3 ∧ v.reg = 0#8) :
    w &&& m = v ↔ w.op = v.op ∧ w.z = 0#1 ∧ w.a &&& m.a = 0#3 ∧ w.reg &&& m.reg = 0#8 := by
  obtain ⟨hvz, hva, hvreg⟩ := hv
  rw [eq_iff_fields, hvz, hva, hvreg, ← w.op.and_allOnes, ← w.z.and_allOnes, ← hop, ← hz]
  simp only [op, z, a, reg, BitVec.extractLsb'_and]

theorem CommandWord.z_eq_zero_iff (w : CommandWord) : w.z = 0#1 ↔ w.getLsbD 11 = false := by
  have hbit : w.z.getLsbD 0 = w.getLsbD 11 := by simp [z]
  rw [← hbit]
  generalize w.z = x
  revert x
  decide

theorem CommandWord.a_high_iff (w : CommandWord) : w.a &&& 4#3 = 0#3 ↔ w.getLsbD 10 = false := by
  have hbit : w.a.getLsbD 2 = w.getLsbD 10 := by simp [a]
  rw [← hbit]
  generalize w.a = x
  revert x
  decide

/-! ### The five rows (R82) -/

section Rows

variable {w : CommandWord}

theorem and_selportMask_iff : w &&& 0xF8FF#16 = 0x1000#16 ↔ w.op = 1#4 ∧ w.z = 0#1 ∧ w.reg = 0#8 := by
  rw [CommandWord.and_eq_iff_fields (by decide) (by decide) (by decide)]
  change _ ∧ _ ∧ w.a &&& 0#3 = 0#3 ∧ w.reg &&& BitVec.allOnes 8 = 0#8 ↔ _
  rw [BitVec.and_zero, BitVec.and_allOnes, eq_self, true_and]
  rfl

theorem and_rdregMask_iff : w &&& 0xF800#16 = 0x2000#16 ↔ w.op = 2#4 ∧ w.z = 0#1 := by
  rw [CommandWord.and_eq_iff_fields (by decide) (by decide) (by decide)]
  change _ ∧ _ ∧ w.a &&& 0#3 = 0#3 ∧ w.reg &&& 0#8 = 0#8 ↔ _
  rw [BitVec.and_zero, BitVec.and_zero, eq_self, eq_self, and_true, and_true]
  rfl

theorem and_filtMask_iff :
    w &&& 0xFCFF#16 = 0x4000#16 ↔ w.op = 4#4 ∧ w.z = 0#1 ∧ w.a &&& 4#3 = 0#3 ∧ w.reg = 0#8 := by
  rw [CommandWord.and_eq_iff_fields (by decide) (by decide) (by decide)]
  change _ ∧ _ ∧ _ ∧ w.reg &&& BitVec.allOnes 8 = 0#8 ↔ _
  rw [BitVec.and_allOnes]
  rfl

theorem eq_acqWord_iff : w = 0x3000#16 ↔ w.op = 3#4 ∧ w.z = 0#1 ∧ w.a = 0#3 ∧ w.reg = 0#8 := CommandWord.eq_iff_fields

theorem eq_runWord_iff : w = 0x5000#16 ↔ w.op = 5#4 ∧ w.z = 0#1 ∧ w.a = 0#3 ∧ w.reg = 0#8 := CommandWord.eq_iff_fields

end Rows

/-- The decoder of R93, by the fields of the word. -/
theorem decode_eq_fields (w : CommandWord) : decode w =
    if w.op = 1#4 ∧ w.z = 0#1 ∧ w.reg = 0#8 then .command (.selport w.a)
    else if w.op = 2#4 ∧ w.z = 0#1 then .command (.rdreg w.a w.reg)
    else if w.op = 3#4 ∧ w.z = 0#1 ∧ w.a = 0#3 ∧ w.reg = 0#8 then .command .acq
    else if w.op = 4#4 ∧ w.z = 0#1 ∧ w.a &&& 4#3 = 0#3 ∧ w.reg = 0#8 then .command (.filt (w.extractLsb' 8 2))
    else if w.op = 5#4 ∧ w.z = 0#1 ∧ w.a = 0#3 ∧ w.reg = 0#8 then .command .run
    else .refused (rejectReason w) := by
  simp only [decode, and_selportMask_iff, and_rdregMask_iff, and_filtMask_iff, eq_acqWord_iff, eq_runWord_iff]
  rfl

/-! ### The word of a command -/

/-- The OP field of a command's word (R82). -/
def Instr.opField : Instr → BitVec 4
  | .selport _ => 1#4
  | .rdreg _ _ => 2#4
  | .acq => 3#4
  | .filt _ => 4#4
  | .run => 5#4

/-- The A field of a command's word (R83). -/
def Instr.aField : Instr → BitVec 3
  | .selport p => p
  | .rdreg p _ => p
  | .acq => 0#3
  | .filt s => s.setWidth 3
  | .run => 0#3

/-- The REG field of a command's word (R83). -/
def Instr.regField : Instr → Byte
  | .rdreg _ r => r
  | .selport _ | .acq | .filt _ | .run => 0#8

/-- The encoder puts each operand in its field, and leaves bit 11 zero (R81 to R83). -/
theorem encode_fields (i : Instr) : (encode i).op = i.opField ∧ (encode i).z = 0#1 ∧ (encode i).a = i.aField ∧
    (encode i).reg = i.regField := by
  cases i with
  | selport p => revert p; decide
  | rdreg p r =>
    exact ⟨Laws.encode_rdreg_op p r, Laws.encode_rdreg_z p r, Laws.encode_rdreg_a p r, Laws.encode_rdreg_reg p r⟩
  | acq => decide
  | filt s => revert s; decide
  | run => decide

theorem encode_toNat (i : Instr) :
    (encode i).toNat = 0x1000 * i.opField.toNat + 0x100 * i.aField.toNat + i.regField.toNat := by
  obtain ⟨hop, hz, ha, hreg⟩ := encode_fields i
  rw [CommandWord.toNat_eq_fields, hop, hz, ha, hreg]
  rfl

/-- The two low bits of A hold the sensor (R81, R83). -/
theorem extractSensor_eq (w : CommandWord) : w.extractLsb' 8 2 = w.a.setWidth 2 := by
  rw [CommandWord.a]
  ext j hj
  simp [show j < 3 by omega]

theorem sensorField_high (s : Sensor) : s.setWidth 3 &&& 4#3 = 0#3 := by revert s; decide

theorem sensorField_setWidth {a : BitVec 3} (h : a &&& 4#3 = 0#3) : (a.setWidth 2).setWidth 3 = a := by
  revert a; decide

theorem decode_encode (i : Instr) : decode (encode i) = .command i := by
  obtain ⟨hop, hz, ha, hreg⟩ := encode_fields i
  rw [decode_eq_fields, extractSensor_eq, hop, hz, ha, hreg]
  cases i with
  | selport p | rdreg p r | acq | run => rfl
  | filt s => simp [Instr.opField, Instr.aField, Instr.regField, sensorField_high]

theorem encode_of_decode {w : CommandWord} {i : Instr} (h : decode w = .command i) : encode i = w := by
  obtain ⟨hop, hz, ha, hreg⟩ := encode_fields i
  rw [CommandWord.eq_iff_fields, hop, hz, ha, hreg]
  rw [decode_eq_fields, extractSensor_eq] at h
  split_ifs at h with selportRow rdregRow acqRow filtRow runRow
  · obtain ⟨rowOp, rowZ, rowReg⟩ := selportRow
    cases h
    exact ⟨rowOp.symm, rowZ.symm, rfl, rowReg.symm⟩
  · obtain ⟨rowOp, rowZ⟩ := rdregRow
    cases h
    exact ⟨rowOp.symm, rowZ.symm, rfl, rfl⟩
  · obtain ⟨rowOp, rowZ, rowA, rowReg⟩ := acqRow
    cases h
    exact ⟨rowOp.symm, rowZ.symm, rowA.symm, rowReg.symm⟩
  · obtain ⟨rowOp, rowZ, rowA, rowReg⟩ := filtRow
    cases h
    exact ⟨rowOp.symm, rowZ.symm, sensorField_setWidth rowA, rowReg.symm⟩
  · obtain ⟨rowOp, rowZ, rowA, rowReg⟩ := runRow
    cases h
    exact ⟨rowOp.symm, rowZ.symm, rowA.symm, rowReg.symm⟩

/-- Settles O1: the fields of the encoded word select the command's own branch of the decoder. -/
theorem decodeEncodeRoundTrip : Obligations.DecodeEncodeRoundTrip := fun i _ => decode_encode i

/-- Settles O2: the row's fields are those of the command's word, and operand types carry the ranges. -/
theorem encodeDecodedWord : Obligations.EncodeDecodedWord := fun _ i h =>
  ⟨encode_of_decode h, Laws.instr_wellFormed i⟩

/-- Settles O4: each word is run through the decoder. -/
theorem sampleWordsDecode : Obligations.SampleWordsDecode :=
  ⟨rfl, rfl, rfl, rfl, rfl, rfl, rfl, ⟨_, rfl⟩, ⟨_, rfl⟩, ⟨_, rfl⟩⟩

/-- Settles O5: the words by their fields, the expansions by definition. -/
theorem mnemonicWords : Obligations.MnemonicWords := by
  refine ⟨fun p => encode_toNat (.selport p), fun p r => encode_toNat (.rdreg p r), rfl, fun s => ?_, rfl,
    fun _ _ => rfl, rfl, rfl⟩
  have hs : (s.setWidth 3).toNat = s.toNat := BitVec.toNat_setWidth_of_le (by decide)
  rw [encode_toNat (.filt s), ← hs]
  rfl

end Sys2Proof
end

section
/-! PROOFS. The words that match no row of the opcode table: which, what they do, and how many
(30_encoding R84). -/

namespace Sys2Proof

/-! ### Which words match no row -/

/-- A branch of the decoder is one more condition on the refused words. -/
theorem refused_ite_iff {c : Prop} [Decidable c] {i : Instr} {d : Decoded} :
    (∃ r, (if c then .command i else d) = .refused r) ↔ ¬c ∧ ∃ r, d = .refused r := by
  by_cases hc : c <;> simp [hc]

/-- The decoder refuses the words that select no row of the table (R93). -/
theorem decode_refused_iff {w : CommandWord} :
    (∃ r, decode w = .refused r) ↔ ∀ row ∈ opcodeTable, row.selects w = false := by
  have hfull : w &&& 0xFFFF#16 = w := BitVec.and_allOnes
  simp [decode, refused_ite_iff, opcodeTable, OpcodeRow.selects, hfull]

/-- OP names one of the five commands, or it is reserved (R84). -/
theorem op_cases (o : BitVec 4) :
    ((o = 0#4 ∨ 6 ≤ o.toNat) ∧ o ≠ 1#4 ∧ o ≠ 2#4 ∧ o ≠ 3#4 ∧ o ≠ 4#4 ∧ o ≠ 5#4) ∨
      o = 1#4 ∨ o = 2#4 ∨ o = 3#4 ∨ o = 4#4 ∨ o = 5#4 := by
  revert o; decide

/-- The words of R84, by the value of OP: under each of the five, the fields that the row leaves no choice. -/
theorem decode_refused_iff_fields {w : CommandWord} :
    (∃ r, decode w = .refused r) ↔
      (w.op = 0#4 ∨ 6 ≤ w.op.toNat ∨ w.getLsbD 11 = true ∨ (w.op = 4#4 ∧ w.getLsbD 10 = true) ∨
        ((w.op = 1#4 ∨ w.op = 3#4 ∨ w.op = 4#4 ∨ w.op = 5#4) ∧ w.reg ≠ 0#8) ∨
        ((w.op = 3#4 ∨ w.op = 5#4) ∧ w.a ≠ 0#3)) := by
  simp only [decode_eq_fields, refused_ite_iff, w.z_eq_zero_iff, w.a_high_iff]
  rcases op_cases w.op with ⟨hreserved, h1, h2, h3, h4, h5⟩ | h | h | h | h | h
  · simp [← or_assoc, hreserved, h1, h2, h3, h4, h5]
  all_goals
    rw [h]
    grind

end Sys2Proof

namespace Sys2Proof.Machine

/-! ### What a refused word does -/

/-- The step of an idle block on a command word. -/
theorem step_command {s : State} {w : CommandWord} {rest : List HostAction} (hs : s.idle)
    (hh : s.host = .command w :: rest) : step s = runWord w { s with host := rest } := by
  rw [step, if_neg (by simp [hs]), hh]

/-- A refused word on an idle block: LREF and LBERR, the response 0x200, and nothing else (R14, R118). -/
theorem step_refused {s : State} {w : CommandWord} {rest : List HostAction} {r : Reject} (hs : s.idle)
    (hh : s.host = .command w :: rest) (hw : decode w = .refused r) :
    step s = .next (refuse { s with host := rest }) := by
  rw [step_command hs hh, runWord, hw]
  exact executeRefused_next.2 ⟨hs, rfl⟩

end Sys2Proof.Machine

namespace Sys2Proof

/-! ### How many words match each row -/

/-- A command's word selects the command's own row (R82). -/
theorem selects_encode (i : Instr) : i.row ∈ opcodeTable ∧ i.row.selects (encode i) = true := by
  obtain ⟨hselects, hmem, -⟩ : Laws.EncodesInRow.Statement i := by
    cases i with
    | selport p => exact Laws.EncodesInRow.selport p
    | rdreg p r => exact Laws.EncodesInRow.rdreg p r
    | acq => exact Laws.EncodesInRow.acq
    | filt s => exact Laws.EncodesInRow.filt s
    | run => exact Laws.EncodesInRow.run
  exact ⟨hmem, hselects⟩

/-- A word with a row's match has its OP: every mask covers OP. -/
theorem op_of_selects {w : CommandWord} {row : OpcodeRow} (hrow : row ∈ opcodeTable) (h : row.selects w = true) :
    w.op = row.match_.op := by
  have hmask : ∀ r ∈ opcodeTable, r.mask.op = BitVec.allOnes 4 := by decide
  rw [OpcodeRow.selects, beq_iff_eq] at h
  calc w.op = w.op &&& row.mask.op := by rw [hmask row hrow, BitVec.and_allOnes]
    _ = (w &&& row.mask).op := BitVec.extractLsb'_and.symm
    _ = row.match_.op := by rw [h]

/-- OP tells the rows of the table apart, so a word selects at most one (R82). -/
theorem row_unique {w : CommandWord} {row row' : OpcodeRow} (hrow : row ∈ opcodeTable) (hrow' : row' ∈ opcodeTable)
    (h : row.selects w = true) (h' : row'.selects w = true) : row = row' := by
  have distinct : ∀ r ∈ opcodeTable, ∀ q ∈ opcodeTable, r.match_.op = q.match_.op → r = q := by decide
  exact distinct row hrow row' hrow' ((op_of_selects hrow h).symm.trans (op_of_selects hrow' h'))

theorem selects_encode_eq (i : Instr) {row : OpcodeRow} (hrow : row ∈ opcodeTable) :
    row.selects (encode i) = decide (i.row = row) := by
  obtain ⟨hmem, hselects⟩ := selects_encode i
  rw [Bool.eq_iff_iff, decide_eq_true_iff]
  exact ⟨fun h => row_unique hmem hrow hselects h, fun h => h ▸ hselects⟩

/-- Every command, row by row. -/
def allCommands : List Instr :=
  (FinEnum.toList Port).map .selport ++ (((FinEnum.toList Port ×ˢ FinEnum.toList Byte).map fun x => .rdreg x.1 x.2) ++
    .acq :: ((FinEnum.toList Sensor).map .filt ++ [.run]))

theorem mem_allCommands (i : Instr) : i ∈ allCommands := by
  cases i <;> simp [allCommands]

theorem nodup_allCommands : allCommands.Nodup := by
  have hselport : ((FinEnum.toList Port).map Instr.selport).Nodup :=
    FinEnum.nodup_toList.map fun _ _ h => Instr.selport.inj h
  have hrdreg : ((FinEnum.toList Port ×ˢ FinEnum.toList Byte).map fun x => Instr.rdreg x.1 x.2).Nodup :=
    (FinEnum.nodup_toList.product FinEnum.nodup_toList).map fun _ _ h => Prod.ext_iff.2 (Instr.rdreg.inj h)
  have hfilt : ((FinEnum.toList Sensor).map Instr.filt).Nodup := FinEnum.nodup_toList.map fun _ _ h => Instr.filt.inj h
  refine hselport.append (hrdreg.append (List.nodup_cons.2 ⟨by simp, hfilt.append (by simp) ?_⟩) ?_) ?_
  all_goals
    intro i hi hj
    cases i <;> simp at hi hj

theorem length_toList (n : Nat) : (FinEnum.toList (BitVec n)).length = 2 ^ n := by
  simp [FinEnum.toList]

/-- How many commands each row of the table has (R84). -/
theorem countP_row_allCommands :
    opcodeTable.map (fun row => allCommands.countP fun i => decide (i.row = row)) = [8, 2048, 1, 4, 1] := by
  simp [opcodeTable, allCommands, List.countP_map, Function.comp_def, Instr.row, length_toList, List.length_product]

theorem length_allCommands : allCommands.length = 2062 := by
  simp [allCommands, length_toList, List.length_product]

/-- Two commands with one word are one, since the word decodes to both. -/
theorem encode_injective : Function.Injective encode := fun i j h => by
  simpa [decode_encode] using congrArg decode h

/-- Some row of the table selects the word. -/
def matchesRow (w : CommandWord) : Bool := opcodeTable.any fun row => row.selects w

theorem matchesRow_iff {w : CommandWord} : matchesRow w = true ↔ ∃ i, encode i = w := by
  rw [matchesRow, List.any_eq_true]
  constructor
  · rintro ⟨row, hrow, h⟩
    cases hw : decode w with
    | command i => exact ⟨i, encode_of_decode hw⟩
    | refused r => simp [decode_refused_iff.1 ⟨r, hw⟩ row hrow] at h
  · rintro ⟨i, rfl⟩
    exact ⟨i.row, selects_encode i⟩

/-- The words the decoder accepts. -/
def acceptedWords : List CommandWord := (FinEnum.toList CommandWord).filter matchesRow

/-- The words that match no row. -/
def rejectedWords : List CommandWord := (FinEnum.toList CommandWord).filter fun w => !matchesRow w

/-- The accepted words are the commands' words, each once. -/
theorem acceptedWords_perm : acceptedWords.Perm (allCommands.map encode) :=
  (List.perm_ext_iff_of_nodup (FinEnum.nodup_toList.filter _) (nodup_allCommands.map encode_injective)).2 fun w => by
    simp [matchesRow_iff, mem_allCommands]

theorem length_acceptedWords : acceptedWords.length = 2062 := by
  rw [acceptedWords_perm.length_eq, List.length_map, length_allCommands]

theorem length_rejectedWords : rejectedWords.length = 63474 := by
  have hsplit : (FinEnum.toList CommandWord).length = acceptedWords.length + rejectedWords.length := by
    rw [acceptedWords, rejectedWords, ← List.length_eq_length_filter_add]
  rw [length_toList, length_acceptedWords] at hsplit
  omega

theorem countP_acceptedWords :
    opcodeTable.map (fun row => acceptedWords.countP row.selects) = [8, 2048, 1, 4, 1] := by
  rw [← countP_row_allCommands]
  refine List.map_congr_left fun row hrow => ?_
  rw [acceptedWords_perm.countP_eq, List.countP_map]
  exact List.countP_congr fun i _ => by simp [selects_encode_eq i hrow]

/-- Settles O3: the refused words by the branches of the decoder, the accepted ones by counting the commands. -/
theorem refusedWords : Obligations.RefusedWords := by
  refine ⟨fun w => decode_refused_iff.symm.trans decode_refused_iff_fields, fun w s rest hw hs hh => ?_,
    acceptedWords, rejectedWords, FinEnum.nodup_toList.filter _, FinEnum.nodup_toList.filter _, length_acceptedWords,
    length_rejectedWords, fun w => ?_, fun w => ?_, countP_acceptedWords⟩
  · obtain ⟨r, hr⟩ := decode_refused_iff.2 hw
    exact Machine.step_refused hs hh hr
  · simp [acceptedWords, matchesRow]
  · simp [rejectedWords, matchesRow]

end Sys2Proof
end

section
/-! PROOFS. The response of every command word (30_encoding R85, 40_bus_ops R118). -/

namespace Sys2Proof.Machine

theorem responseWord_fields (refused berr : Bool) (d : Byte) :
    (responseWord refused berr d).getLsbD 9 = refused ∧ (responseWord refused berr d).getLsbD 8 = berr ∧
      (responseWord refused berr d).extractLsb' 0 8 = d := by
  refine ⟨?_, ?_, BitVec.extractLsb'_append_eq_right⟩
  · change (BitVec.ofBool refused ++ BitVec.ofBool berr ++ d).getLsbD 9 = refused
    rw [BitVec.getLsbD_append, BitVec.getLsbD_append]
    simp
  · change (BitVec.ofBool refused ++ BitVec.ofBool berr ++ d).getLsbD 8 = berr
    rw [BitVec.getLsbD_append, BitVec.getLsbD_append]
    simp

/-! ### How a command ends -/

/-- The command delivered one response, carrying LREF, LBERR and `d` (R118). -/
def Answered (d : Byte) (s t : State) : Prop :=
  t.stuck = false ∧ t.responses = s.responses ++ [responseWord t.lref t.lberr d]

/-- The command hung, and delivered nothing (R199). -/
def HungSilent (s t : State) : Prop := t.stuck = true ∧ t.responses = s.responses

theorem answered_refuse {s : State} (hs : s.stuck = false) : Answered 0#8 s (refuse s) := ⟨hs, rfl⟩

/-- After a trace without a stall, whatever the command stores besides. -/
theorem Trace.answered {s t u : State} {e : List Event} {d : Byte} (tr : Trace s.acceptFlags u e) (hu : u.stuck = false)
    (hflags : t.stuck = u.stuck ∧ t.lref = u.lref ∧ t.responses = u.responses) :
    Answered d s (t.respond (responseWord false t.lberr d)) := by
  obtain ⟨hstuck, hlref, hresp⟩ := hflags
  have hlref' : t.lref = false := hlref.trans tr.lref
  refine ⟨hstuck.trans hu, ?_⟩
  rw [State.respond_responses, State.respond_lref, State.respond_lberr, hlref', hresp, tr.responses]
  rfl

theorem FlowTrace.hungSilent {α : Type} {s t : State} {x : Flow α} (hx : x = .hung t)
    (htrace : ∃ e, FlowTrace s.acceptFlags x e) : HungSilent s t := by
  subst hx
  obtain ⟨e, he⟩ := htrace
  exact ⟨by simpa [he.stalled] using he.trace.stuck, he.trace.responses⟩

/-- The data a command answers: RDATA for RDREG, 0 for the others (R85, R113). -/
def responseData : Instr → State → Byte
  | .rdreg _ _, t => t.rdata
  | .selport _, _ | .acq, _ | .filt _, _ | .run, _ => 0#8

/-- Every command hangs in silence or delivers its one response. -/
theorem exec_ends {i : Instr} {s t : State} (h : exec i s = .next t) :
    HungSilent s t ∨ Answered (responseData i t) s t := by
  cases i with
  | selport p =>
    rcases exec_selport_next h with ⟨b, u, e, -, tr, hu, rfl⟩ | ⟨e, hhung, -⟩
    · exact .inr (tr.answered hu ⟨rfl, rfl, rfl⟩)
    · exact .inl (FlowTrace.hungSilent hhung ⟨_, select_trace p _⟩)
  | rdreg p r =>
    rcases exec_rdreg_next h with ⟨b, u, e, -, tr, hu, rfl⟩ | ⟨e, hhung, -⟩
    · exact .inr (tr.answered (t := u.setRdata b) hu ⟨rfl, rfl, rfl⟩)
    · exact .inl (FlowTrace.hungSilent hhung (readReg_trace p r _))
  | acq =>
    rcases exec_acq_next h with ⟨a, u, e, -, tr, hu, rfl⟩ | ⟨e, hhung, -⟩
    · exact .inr (tr.answered hu ⟨rfl, rfl, rfl⟩)
    · exact .inl (FlowTrace.hungSilent hhung (acqRound_trace _))
  | filt x =>
    have hidle := exec_idle h
    rcases exec_filt_next h with ⟨-, rfl⟩ | ⟨-, rfl⟩
    · exact .inr ⟨by simp [hidle], by simp [responseData]⟩
    · exact .inr (answered_refuse hidle)
  | run =>
    rcases exec_run_next h with ⟨a, u, e, -, tr, hu, rfl⟩ | ⟨e, hhung, -⟩
    · exact .inr (tr.answered hu (by simp))
    · exact .inl (FlowTrace.hungSilent hhung (runRounds_trace _))

/-! ### The byte of a register read that failed -/

theorem readPhase_error {s t : State} {b : Byte} (h : readPhase s = .done b t) (hs : s.lberr = false)
    (ht : t.lberr = true) : b = Config.sentinel := by
  unfold readPhase at h
  cases hx : s.readAnswer s.cfg.accAddr with
  | ok c =>
    rw [hx] at h
    cases h
    simp [hs] at ht
  | nack => rw [hx] at h; cases h; rfl
  | stall => rw [hx] at h; cases h

theorem registerPhases_error {r : Byte} {s t : State} {b : Byte} (h : registerPhases r s = .done b t)
    (hs : s.lberr = false) (ht : t.lberr = true) : b = Config.sentinel := by
  unfold registerPhases at h
  cases hx : s.writeAnswer s.cfg.accAddr r false with
  | ack => rw [hx] at h; exact readPhase_error h hs ht
  | nack => rw [hx] at h; cases h; rfl
  | stall => rw [hx] at h; cases h

/-- A selection that succeeded raised no error (R110, R112). -/
theorem ensurePort_selected {p : Port} {s t : State} (h : ensurePort p s = .done true t) : t.lberr = s.lberr := by
  unfold ensurePort at h
  split at h
  · cases h; rfl
  · unfold select at h
    cases hx : s.writeAnswer s.cfg.muxAddr (mask p) true with
    | ack => rw [hx] at h; cases h; rfl
    | nack => rw [hx] at h; cases h
    | stall => rw [hx] at h; cases h

/-- A `ReadReg` in which a primitive failed returns SENTINEL_RD (R112). -/
theorem readReg_error {p : Port} {r b : Byte} {s t : State} (h : readReg p r s = .done b t) (hs : s.lberr = false)
    (ht : t.lberr = true) : b = Config.sentinel := by
  unfold readReg at h
  cases hsel : ensurePort p s with
  | hung u => rw [hsel] at h; cases h
  | done selected u =>
    rw [hsel] at h
    cases selected with
    | true => exact registerPhases_error h ((ensurePort_selected hsel).trans hs) ht
    | false => cases h; rfl

/-- An RDREG that completed with an error has latched 0 (R112, R113). -/
theorem exec_rdreg_error {p : Port} {r : Byte} {s t : State} (h : exec (.rdreg p r) s = .next t)
    (hstuck : t.stuck = false) (ht : t.lberr = true) : t.rdata = 0#8 := by
  rcases exec_rdreg_next h with ⟨b, u, e, hread, -, -, rfl⟩ | ⟨e, hhung, -⟩
  · exact readReg_error hread rfl ht
  · obtain ⟨hhang, -⟩ := FlowTrace.hungSilent hhung (readReg_trace p r _)
    simp [hhang] at hstuck

/-! ### A command word -/

/-- What the step on a command word leads to. -/
theorem step_command_next {s t : State} {w : CommandWord} {rest : List HostAction} (hs : s.idle)
    (hh : s.host = .command w :: rest) (h : step s = .next t) :
    (∃ i, decode w = .command i ∧ exec i { s with host := rest } = .next t) ∨
    (∃ r, decode w = .refused r ∧ t = refuse { s with host := rest }) := by
  rw [step_command hs hh, runWord] at h
  cases hw : decode w with
  | command i => rw [hw] at h; exact .inl ⟨i, rfl, h⟩
  | refused r => rw [hw] at h; exact .inr ⟨r, rfl, (executeRefused_next.1 h).2⟩

/-- Settles O13: every command hangs in silence or answers once, a refused word answers with data 0. -/
theorem responseOfEveryCommand : Obligations.ResponseOfEveryCommand := by
  refine ⟨responseWord_fields, fun s t w rest hs hh h => ?_⟩
  rcases step_command_next hs hh h with ⟨i, hw, hexec⟩ | ⟨r, hw, rfl⟩
  · rcases exec_ends hexec with ⟨hstuck, hresp⟩ | ⟨hstuck, hresp⟩
    · exact ⟨fun _ => hresp, fun hf => by simp [hstuck] at hf⟩
    · refine ⟨fun hf => by simp [hstuck] at hf, fun _ => ⟨_, hresp, ?_, ?_⟩⟩
      · rintro ⟨p, r, hrd⟩
        obtain rfl : i = .rdreg p r := by simpa [hw] using hrd
        exact ⟨rfl, exec_rdreg_error hexec hstuck⟩
      · intro hother
        cases i with
        | rdreg p r => exact absurd ⟨p, r, hw⟩ hother
        | selport p | acq | filt x | run => rfl
  · obtain ⟨hstuck, hresp⟩ := answered_refuse (s := { s with host := rest }) hs
    exact ⟨fun hf => by simp [hstuck] at hf, fun _ => ⟨_, hresp, by simp [hw], fun _ => rfl⟩⟩

end Sys2Proof.Machine
end

section
/-! PROOFS. The control byte and the bytes on the wire (30_encoding R88 to R91). -/

namespace Sys2Proof.Machine

theorem mask_eq_twoPow (p : Port) : mask p = BitVec.twoPow 8 p.toNat := rfl

/-- Settles O14: the control byte of port p is 2^p, and p is below 8. -/
theorem controlByteIsOneHot : Obligations.ControlByteIsOneHot := by
  refine ⟨fun p j => ?_, fun p => ?_, rfl, rfl, rfl, rfl, rfl⟩
  · have hp := p.isLt
    rw [mask_eq_twoPow, BitVec.getLsbD_twoPow]
    simp only [hp, decide_true, Bool.true_and, eq_comm]
  · rw [mask_eq_twoPow, BitVec.toNat_twoPow]
    exact Nat.mod_eq_of_lt (Nat.pow_lt_pow_right (by decide) p.isLt)

/-- Settles O57: both histories have one byte-level form, by the layouts of R89 and R90. -/
theorem registerReadOnTheWire : Obligations.RegisterReadOnTheWire := fun _ _ _ _ => ⟨rfl, rfl⟩

end Sys2Proof.Machine
end

section
/-! PROOFS. The bus commands SELPORT and RDREG (40_bus_ops R110 to R118): how a selection and a register read end for each
answer of the bus, the next state of each command, and what `ReadReg` and every command put on the bus. -/

namespace Sys2Proof.Machine

/-! ### Every command -/

/-- Settles O6: the step on a command word runs the word, and the word runs its command. -/
theorem stepRunsDecodedCommand : Obligations.StepRunsDecodedCommand := by
  intro s w i rest hs hh hw
  rw [step_command hs hh, runWord, hw]

/-- Settles O51: the trace of the command is its bus traffic. -/
theorem busTrafficOfCommands : Obligations.BusTrafficOfCommands := by
  intro i s t h
  obtain ⟨events, tr⟩ := exec_trace h
  exact ⟨events, tr.hist, tr.draws, tr.fromBlock⟩

/-! ### Several primitives done -/

/-- `logEvent` for several primitives: their events at the end of H, the environment after the last of them. -/
def State.logEvents (s : State) (events : List Event) (env : Env) : State :=
  { s with hist := s.hist ++ events, env := env, draws := s.draws + events.length }

theorem State.logEvents_logEvents (s : State) (d e : List Event) (v w : Env) :
    (s.logEvents d v).logEvents e w = s.logEvents (d ++ e) w := by
  simp [State.logEvents, Nat.add_assoc]

theorem State.afterWrite_eq_logEvents {s : State} {a : BusAddr} {x : Byte} {stop : Bool} {w : WriteResult}
    (h : s.writeAnswer a x stop = w) :
    s.afterWrite a x stop = s.logEvents [.write a x stop w] (s.afterWrite a x stop).env := by
  subst h; rfl

theorem State.afterRead_eq_logEvents {s : State} {a : BusAddr} {d : ReadResult} (h : s.readAnswer a = d) :
    s.afterRead a = s.logEvents [.read a d] (s.afterRead a).env := by
  subst h; rfl

theorem State.afterWriteRead_eq_logEvents {s : State} {a : BusAddr} {x : Byte} {stop : Bool} {w : WriteResult}
    {d : ReadResult} (hw : s.writeAnswer a x stop = w) (hd : (s.afterWrite a x stop).readAnswer a = d) :
    (s.afterWrite a x stop).afterRead a =
      s.logEvents [.write a x stop w, .read a d] ((s.afterWrite a x stop).afterRead a).env := by
  rw [State.afterRead_eq_logEvents hd, State.afterWrite_eq_logEvents hw, State.logEvents_logEvents]
  rfl

variable {s t : State} {p : Port} {r b : Byte}

/-! ### The selection, by the answer of the multiplexer (R110) -/

theorem select_ack (h : s.writeAnswer s.cfg.muxAddr (mask p) true = .ack) :
    select p s = .done true ((s.afterWrite s.cfg.muxAddr (mask p) true).setCurport (some p)) := by
  simp only [select, h]

theorem select_nack (h : s.writeAnswer s.cfg.muxAddr (mask p) true = .nack) :
    select p s = .done false ((s.afterWrite s.cfg.muxAddr (mask p) true).setCurport none).raiseBusError := by
  simp only [select, h]

theorem select_stall (h : s.writeAnswer s.cfg.muxAddr (mask p) true = .stall) :
    select p s = .hung (s.afterWrite s.cfg.muxAddr (mask p) true).hang := by
  simp only [select, h]

/-- SELPORT is the selection and the response with data 0 (R111). -/
theorem exec_selport (hs : s.idle) :
    exec (.selport p) s = .next (finishCommand ((select p s.acceptFlags).bind fun _ t => .done 0#8 t)) :=
  execute_next.2 ⟨hs, rfl⟩

/-- Settles O15: SELPORT is `Select` and a response, and `Select` goes by the answer alone. -/
theorem selportResult : Obligations.SelportResult := by
  intro p s hs
  refine ⟨fun h => ?_, fun h => ?_, fun h => ?_⟩
  · rw [exec_selport hs, select_ack (s := s.acceptFlags) h]; rfl
  · rw [exec_selport hs, select_nack (s := s.acceptFlags) h]; rfl
  · rw [exec_selport hs, select_stall (s := s.acceptFlags) h]; rfl

/-! ### The register phases, by the answers of the accelerometer (R112) -/

theorem registerPhases_address_nack (hw : s.writeAnswer s.cfg.accAddr r false = .nack) :
    registerPhases r s = .done 0#8 (s.logEvents [.write s.cfg.accAddr r false .nack]
      (s.afterWrite s.cfg.accAddr r false).env).raiseBusError := by
  rw [registerPhases, hw, ← State.afterWrite_eq_logEvents hw]; rfl

theorem registerPhases_address_stall (hw : s.writeAnswer s.cfg.accAddr r false = .stall) :
    registerPhases r s = .hung (s.logEvents [.write s.cfg.accAddr r false .stall]
      (s.afterWrite s.cfg.accAddr r false).env).hang := by
  rw [registerPhases, hw, ← State.afterWrite_eq_logEvents hw]

theorem registerPhases_read_ok (hw : s.writeAnswer s.cfg.accAddr r false = .ack)
    (hd : (s.afterWrite s.cfg.accAddr r false).readAnswer s.cfg.accAddr = .ok b) :
    registerPhases r s = .done b (s.logEvents [.write s.cfg.accAddr r false .ack, .read s.cfg.accAddr (.ok b)]
      ((s.afterWrite s.cfg.accAddr r false).afterRead s.cfg.accAddr).env) := by
  rw [registerPhases, hw, ← State.afterWriteRead_eq_logEvents hw hd]
  simp only [readPhase, State.afterWrite_cfg, hd]

theorem registerPhases_read_nack (hw : s.writeAnswer s.cfg.accAddr r false = .ack)
    (hd : (s.afterWrite s.cfg.accAddr r false).readAnswer s.cfg.accAddr = .nack) :
    registerPhases r s = .done 0#8 (s.logEvents [.write s.cfg.accAddr r false .ack, .read s.cfg.accAddr .nack]
      ((s.afterWrite s.cfg.accAddr r false).afterRead s.cfg.accAddr).env).raiseBusError := by
  rw [registerPhases, hw, ← State.afterWriteRead_eq_logEvents hw hd]
  simp only [readPhase, State.afterWrite_cfg, hd, Config.sentinel]

theorem registerPhases_read_stall (hw : s.writeAnswer s.cfg.accAddr r false = .ack)
    (hd : (s.afterWrite s.cfg.accAddr r false).readAnswer s.cfg.accAddr = .stall) :
    registerPhases r s = .hung (s.logEvents [.write s.cfg.accAddr r false .ack, .read s.cfg.accAddr .stall]
      ((s.afterWrite s.cfg.accAddr r false).afterRead s.cfg.accAddr).env).hang := by
  rw [registerPhases, hw, ← State.afterWriteRead_eq_logEvents hw hd]
  simp only [readPhase, State.afterWrite_cfg, hd]

/-! ### ReadReg, by CURPORT and the answer to its selection (R112, R114) -/

/-- The state after an acknowledged selection of `p`. -/
def State.selected (s : State) (p : Port) : State :=
  (s.logEvents [.write s.cfg.muxAddr (mask p) true .ack] (s.afterWrite s.cfg.muxAddr (mask p) true).env).setCurport (some p)

theorem State.selected_logEvents (s : State) (p : Port) (events : List Event) (env : Env) :
    (s.selected p).logEvents events env =
      (s.logEvents (.write s.cfg.muxAddr (mask p) true .ack :: events) env).setCurport (some p) := by
  simp [State.selected, State.logEvents, State.setCurport, Nat.add_assoc, Nat.add_comm 1]

theorem readReg_current (hp : s.curport = some p) : readReg p r s = registerPhases r s := by
  simp [readReg, ensurePort, hp]

theorem readReg_select (hp : s.curport ≠ some p) : readReg p r s =
    (select p s).bind fun selected t => if selected then registerPhases r t else .done 0#8 t := by
  rw [readReg, ensurePort, if_neg hp]; rfl

theorem readReg_select_ack (hp : s.curport ≠ some p) (h : s.writeAnswer s.cfg.muxAddr (mask p) true = .ack) :
    readReg p r s = registerPhases r (s.selected p) := by
  rw [readReg_select hp, select_ack h, State.selected, ← State.afterWrite_eq_logEvents h]
  simp

theorem readReg_select_nack (hp : s.curport ≠ some p) (h : s.writeAnswer s.cfg.muxAddr (mask p) true = .nack) :
    readReg p r s = .done 0#8 ((s.logEvents [.write s.cfg.muxAddr (mask p) true .nack]
      (s.afterWrite s.cfg.muxAddr (mask p) true).env).setCurport none).raiseBusError := by
  rw [readReg_select hp, select_nack h, ← State.afterWrite_eq_logEvents h]
  simp

theorem readReg_select_stall (hp : s.curport ≠ some p) (h : s.writeAnswer s.cfg.muxAddr (mask p) true = .stall) :
    readReg p r s = .hung (s.logEvents [.write s.cfg.muxAddr (mask p) true .stall]
      (s.afterWrite s.cfg.muxAddr (mask p) true).env).hang := by
  rw [readReg_select hp, select_stall h, ← State.afterWrite_eq_logEvents h]
  rfl

/-! ### RDREG, by its register phases (R113) -/

theorem exec_rdreg_current (hs : s.idle) (hp : s.curport = some p) (h : registerPhases r s.acceptFlags = .done b t) :
    exec (.rdreg p r) s = .next ((t.setRdata b).respond (responseWord false t.lberr b)) :=
  exec_rdreg_done hs ((readReg_current (s := s.acceptFlags) hp).trans h)

theorem exec_rdreg_selected (hs : s.idle) (hp : s.curport ≠ some p)
    (hsel : s.writeAnswer s.cfg.muxAddr (mask p) true = .ack)
    (h : registerPhases r (s.acceptFlags.selected p) = .done b t) :
    exec (.rdreg p r) s = .next ((t.setRdata b).respond (responseWord false t.lberr b)) :=
  exec_rdreg_done hs ((readReg_select_ack (s := s.acceptFlags) hp hsel).trans h)

/-- Settles O16: no selection, then the two register phases. -/
theorem rdregOnCurrentPort : Obligations.RdregOnCurrentPort := fun _ _ _ s hs hp hw hd =>
  exec_rdreg_current hs hp (registerPhases_read_ok (s := s.acceptFlags) hw hd)

/-- Settles O17: the selection, then the two register phases from the state it leaves. -/
theorem rdregOnOtherPort : Obligations.RdregOnOtherPort := by
  intro p r b s hs hp s1 s2 hsel hw hd
  have h := registerPhases_read_ok (s := s.acceptFlags.selected p) hw hd
  rw [State.selected_logEvents] at h
  exact exec_rdreg_selected hs hp hsel h

/-- Settles O18: the selection fails, or a register phase does, on the state the selection leaves or on the current port. -/
theorem rdregFailures : Obligations.RdregFailures := by
  intro p r s hs failed s1 selection
  refine ⟨fun hp hsel => ?_, fun hp hsel hw => ?_, fun hp hsel hw hd => ?_, fun hp hw => ?_, fun hp hw hd => ?_⟩
  · exact exec_rdreg_done hs (readReg_select_nack (s := s.acceptFlags) hp hsel)
  · have h := registerPhases_address_nack (s := s.acceptFlags.selected p) hw
    rw [State.selected_logEvents] at h
    exact exec_rdreg_selected hs hp hsel h
  · have h := registerPhases_read_nack (s := s.acceptFlags.selected p) hw hd
    rw [State.selected_logEvents] at h
    exact exec_rdreg_selected hs hp hsel h
  · rw [← hp]
    exact exec_rdreg_current hs hp (registerPhases_address_nack (s := s.acceptFlags) hw)
  · rw [← hp]
    exact exec_rdreg_current hs hp (registerPhases_read_nack (s := s.acceptFlags) hw hd)

/-! ### Every end of ReadReg, with its events (R112) -/

/-- The ends of the register phases: a value or a hang, and the events. -/
inductive PhasesEnd (c : Params) (r : Byte) : Flow Byte → List Event → Prop
  | addressFailed (t : State) : PhasesEnd c r (.done 0#8 t) [.write c.accAddr r false .nack]
  | addressStalled (t : State) : PhasesEnd c r (.hung t) [.write c.accAddr r false .stall]
  | readFailed (t : State) : PhasesEnd c r (.done 0#8 t) [.write c.accAddr r false .ack, .read c.accAddr .nack]
  | readStalled (t : State) : PhasesEnd c r (.hung t) [.write c.accAddr r false .ack, .read c.accAddr .stall]
  | byteRead (b : Byte) (t : State) : PhasesEnd c r (.done b t) [.write c.accAddr r false .ack, .read c.accAddr (.ok b)]

/-- The ends of `ReadReg(p, r)` called with CURPORT = `cur`: those of the register phases, after a selection or without one,
and those of a selection that is not acknowledged. -/
inductive ReadRegEnd (c : Params) (p : Port) (r : Byte) (cur : Option Port) : Flow Byte → List Event → Prop
  | current {x : Flow Byte} {events : List Event} (hp : cur = some p) (h : PhasesEnd c r x events) :
      ReadRegEnd c p r cur x events
  | selected {x : Flow Byte} {events : List Event} (hp : cur ≠ some p) (h : PhasesEnd c r x events) :
      ReadRegEnd c p r cur x (.write c.muxAddr (mask p) true .ack :: events)
  | selectFailed (hp : cur ≠ some p) (t : State) :
      ReadRegEnd c p r cur (.done 0#8 t) [.write c.muxAddr (mask p) true .nack]
  | selectStalled (hp : cur ≠ some p) (t : State) :
      ReadRegEnd c p r cur (.hung t) [.write c.muxAddr (mask p) true .stall]

theorem registerPhases_end (r : Byte) (s : State) : ∃ events,
    PhasesEnd s.cfg r (registerPhases r s) events ∧ (registerPhases r s).state.hist = s.hist ++ events := by
  cases hw : s.writeAnswer s.cfg.accAddr r false with
  | nack => rw [registerPhases_address_nack hw]; exact ⟨_, .addressFailed _, rfl⟩
  | stall => rw [registerPhases_address_stall hw]; exact ⟨_, .addressStalled _, rfl⟩
  | ack =>
    cases hd : (s.afterWrite s.cfg.accAddr r false).readAnswer s.cfg.accAddr with
    | nack => rw [registerPhases_read_nack hw hd]; exact ⟨_, .readFailed _, rfl⟩
    | stall => rw [registerPhases_read_stall hw hd]; exact ⟨_, .readStalled _, rfl⟩
    | ok b => rw [registerPhases_read_ok hw hd]; exact ⟨_, .byteRead b _, rfl⟩

theorem readReg_end (p : Port) (r : Byte) (s : State) : ∃ events,
    ReadRegEnd s.cfg p r s.curport (readReg p r s) events ∧ (readReg p r s).state.hist = s.hist ++ events := by
  by_cases hp : s.curport = some p
  · rw [readReg_current hp]
    obtain ⟨events, hend, hhist⟩ := registerPhases_end r s
    exact ⟨events, .current hp hend, hhist⟩
  · cases hsel : s.writeAnswer s.cfg.muxAddr (mask p) true with
    | nack => rw [readReg_select_nack hp hsel]; exact ⟨_, .selectFailed hp _, rfl⟩
    | stall => rw [readReg_select_stall hp hsel]; exact ⟨_, .selectStalled hp _, rfl⟩
    | ack =>
      rw [readReg_select_ack hp hsel]
      obtain ⟨events, hend, hhist⟩ := registerPhases_end r (s.selected p)
      exact ⟨_, .selected hp hend, hhist.trans (List.append_assoc _ _ _)⟩

theorem PhasesEnd.no_selection {c : Params} {x : Flow Byte} {events : List Event} (h : PhasesEnd c r x events) :
    ∀ e ∈ events, e.isSelection = false := by
  cases h <;> simp [Event.isSelection]

/-- The skip rule, on the events of `ReadReg` (R114). -/
theorem ReadRegEnd.selection_first {c : Params} {cur : Option Port} {x : Flow Byte} {events : List Event}
    (h : ReadRegEnd c p r cur x events) :
    (cur = some p ∧ ∀ e ∈ events, e.isSelection = false) ∨
    (cur ≠ some p ∧ ∃ w rest, events = .write c.muxAddr (mask p) true w :: rest ∧ ∀ e ∈ rest, e.isSelection = false) := by
  cases h with
  | current hp h => exact .inl ⟨hp, h.no_selection⟩
  | selected hp h => exact .inr ⟨hp, _, _, rfl, h.no_selection⟩
  | selectFailed hp _ | selectStalled hp _ => exact .inr ⟨hp, _, [], rfl, by simp⟩

/-- Settles O19: either no event is a selection, or the first is one and the register phases add none. -/
theorem skipRule : Obligations.SkipRule := by
  intro p r s
  obtain ⟨events, hend, hhist⟩ := readReg_end p r s
  refine ⟨events, hhist, ?_⟩
  rcases hend.selection_first with ⟨hp, hno⟩ | ⟨hp, w, rest, rfl, hno⟩
  · have hnone : ¬∃ e ∈ events, e.isSelection = true := fun ⟨e, he, hsel⟩ => by simp [hno e he] at hsel
    exact ⟨iff_of_false hnone (not_not.2 hp), fun e he => hno e (List.mem_of_mem_tail he), fun hne => absurd hp hne⟩
  · exact ⟨iff_of_true ⟨_, List.mem_cons_self, rfl⟩ hp, hno, fun _ => ⟨w, rfl⟩⟩

/-! ### The flags and CURPORT after ReadReg -/

/-- The register phases do not address the multiplexer. -/
theorem PhasesEnd.portAfter_eq {c : Params} {x : Flow Byte} {events : List Event} (h : PhasesEnd c r x events)
    (cur : Option Port) : portAfter cur events = cur := by
  cases h <;> rfl

theorem portAfter_select_ack (cur : Option Port) (a : BusAddr) (p : Port) (events : List Event) :
    portAfter cur (.write a (mask p) true .ack :: events) = portAfter (some p) events := by
  rw [← List.singleton_append, portAfter_append]
  simp [portAfter, Event.routing, mask_find]

/-- What a procedure appended to H is its trace. -/
theorem FlowTrace.of_hist {α : Type} {x : Flow α} {events : List Event} (h : ∃ e, FlowTrace s x e)
    (hhist : x.state.hist = s.hist ++ events) : FlowTrace s x events := by
  obtain ⟨e, he⟩ := h
  rwa [List.append_cancel_left (he.trace.hist.symm.trans hhist)] at he

/-- Settles O20: the events fix the flags and CURPORT by the trace, and every completed end of `ReadReg` has its events. -/
theorem readRegEndsAtFirstFailure : Obligations.ReadRegEndsAtFirstFailure := by
  intro p r b s t h
  obtain ⟨events, hend, hhist⟩ := readReg_end p r s
  have tr : Trace s (readReg p r s).state events := (FlowTrace.of_hist (readReg_trace p r s) hhist).trace
  rw [h] at hend tr
  rw [Flow.state_done] at tr
  refine ⟨events, tr.hist, ?_⟩
  rw [tr.berr, tr.lberr, tr.curport]
  cases hend with
  | current hp hend =>
    rw [hend.portAfter_eq, hp]
    cases hend <;> simp [Event.failed, Event.isSelection]
  | selected hp hend =>
    rw [portAfter_select_ack, hend.portAfter_eq]
    cases hend <;> simp [Event.failed, Event.isSelection]
  | selectFailed hp _ => simp [Event.failed, Event.isSelection, portAfter, Event.routing]

end Sys2Proof.Machine
end

section
/-! PROOFS. The command ACQ (41_acquire R140 to R144): the sensor map, the axis decoding, and the rounds that the
answers of the bus lead to. -/

namespace Sys2Proof.Machine

/-! ### The sensor map and the axis decoding (R140, R141) -/

theorem portMap_injective : Function.Injective portMap := by decide

/-- Settles O21: the table is read off, and injective by `portMap_injective`. -/
theorem sensorPortMap : Obligations.SensorPortMap :=
  ⟨rfl, rfl, rfl, rfl, rfl, rfl, rfl, rfl, fun _ _ h => portMap_injective h, ⟨0#2, 1#2, by decide⟩, by decide⟩

theorem toInt_eq_asI8 (b : Byte) : b.toInt = asI8 b := by
  rw [BitVec.toInt_eq_toNat_cond, asI8]
  split_ifs <;> omega

/-- `asU8` takes the byte that is `v` modulo 256, whatever the sign of `v` (R11). -/
theorem asU8_eq_ofInt (v : Int) : asU8 v = BitVec.ofInt 8 v := by
  unfold asU8
  split_ifs
  · rfl
  · apply BitVec.eq_of_toNat_eq
    simp [BitVec.toNat_ofInt]

theorem toInt_ofInt_byte {v : Int} (hmin : -128 ≤ v) (hmax : v ≤ 127) : (BitVec.ofInt 8 v).toInt = v := by
  rw [BitVec.toInt_ofInt]
  exact Int.bmod_eq_of_le (by omega) (by omega)

/-- Settles O22: `decodeAxis` keeps the bits, so it is the library's `toInt` with the inverse `ofInt`. -/
theorem axisDecoding : Obligations.AxisDecoding :=
  ⟨fun b => ⟨toInt_eq_asI8 b, by rw [asU8_eq_ofInt]; exact BitVec.ofInt_toInt⟩,
    fun v hmin hmax => ⟨BitVec.ofInt 8 v, toInt_ofInt_byte hmin hmax⟩, fun _ _ h => h, rfl, rfl, rfl, rfl, rfl⟩

/-! ### An ACQ whose round completes (R143) -/

/-- ACQ completed: its next state is `t`, after the primitives `events`. -/
structure AcqDone (s t : State) (events : List Event) : Prop where
  exec      : exec .acq s = .next t
  round     : RoundDone s t
  trace     : CommandTrace s t events
  frame     : BusFrame s t
  rdata     : t.rdata = s.rdata
  idle      : t.idle
  responses : t.responses = s.responses ++ [responseWord false t.lberr 0#8]

theorem exec_acq_done {s u : State} (hs : s.idle) (h : acqRound s.acceptFlags = .done () u) :
    ∃ events, AcqDone s (u.respond (responseWord false u.lberr 0#8)) events := by
  obtain ⟨events, trace, hstall, hlast⟩ := acqRound_trace s.acceptFlags
  obtain ⟨hwslot, hwfull, hother, hkeeps, hwrites⟩ := acqRound_done h
  rw [h] at trace hstall
  refine ⟨events, execute_next.2 ⟨hs, by rw [acqBody, h]; rfl⟩, ⟨hwslot, hwfull, hother, hkeeps, hwrites⟩,
    trace.command hs hlast rfl, trace.busFrame.respond _, trace.rdata, ?_, ?_⟩
  · exact trace.stuck.trans (by rw [hstall, State.acceptFlags_stuck, hs]; rfl)
  · exact congrArg (· ++ [responseWord false u.lberr 0#8]) trace.responses

/-- Settles O25: 28 answers without a stall carry the round to its end. -/
theorem acqCompletesDespiteFailures : Obligations.AcqCompletesDespiteFailures := by
  intro s l rest hs hlen hl he
  obtain ⟨u, hu, -⟩ := acqRound_lasts (n := 0) (s := s.acceptFlags) ⟨l, he, hl, by omega⟩
  obtain ⟨events, done⟩ := exec_acq_done hs hu
  exact ⟨_, done.exec, done.idle, done.round.wslot, done.round.wfull, done.frame.lref, done.responses,
    done.round.writes⟩

/-! ### A round, sensor by sensor (R142) -/

theorem forall_sensor {P : Sensor → Prop} (h : P 0#2 ∧ P 1#2 ∧ P 2#2 ∧ P 3#2) (x : Sensor) : P x := by
  obtain ⟨h0, h1, h2, h3⟩ := h
  have hx := mem_allSensors x
  simp only [allSensors, List.mem_cons, List.not_mem_nil, or_false] at hx
  rcases hx with rfl | rfl | rfl | rfl <;> assumption

theorem acqSensors_all {k : Slot} {s0 s1 s2 s3 s4 : State} (h0 : acqSensor k 0#2 s0 = .done () s1)
    (h1 : acqSensor k 1#2 s1 = .done () s2) (h2 : acqSensor k 2#2 s2 = .done () s3)
    (h3 : acqSensor k 3#2 s3 = .done () s4) : acqSensors k allSensors s0 = .done () s4 := by
  simp only [allSensors, acqSensors, h0, h1, h2, h3, Flow.bind_done]

/-- The sensors of a round on slot `k` did the primitives `events`, left the script `rest`, and stored `v x` for each
sensor `x`. -/
structure SensorsDone (k : Slot) (s t : State) (events : List Event) (rest : List Answer) (v : Sensor → Vector3i8) :
    Prop where
  run     : acqSensors k allSensors s = .done () t
  hist    : t.hist = s.hist ++ events
  env     : t.env = .script rest
  samples : ∀ x, Grid.get t.win x k = v x

@[simp] theorem beginRound_curport (s : State) : (beginRound s).curport = s.curport := by
  unfold beginRound; split <;> rfl

@[simp] theorem beginRound_cfg (s : State) : (beginRound s).cfg = s.cfg := by unfold beginRound; split <;> rfl

@[simp] theorem beginRound_env (s : State) : (beginRound s).env = s.env := by unfold beginRound; split <;> rfl

@[simp] theorem beginRound_hist (s : State) : (beginRound s).hist = s.hist := by unfold beginRound; split <;> rfl

@[simp] theorem endRound_env (k : Slot) (s : State) : (endRound k s).env = s.env := by unfold endRound; split <;> rfl

@[simp] theorem endRound_hist (k : Slot) (s : State) : (endRound k s).hist = s.hist := by
  unfold endRound; split <;> rfl

theorem SensorsDone.exec_acq {s u : State} {events : List Event} {rest : List Answer} {v : Sensor → Vector3i8}
    (h : SensorsDone s.wslot (beginRound s.acceptFlags) u events rest v) (hs : s.idle) :
    ∃ t, AcqDone s t events ∧ t.env = .script rest ∧ ∀ x, Grid.get t.win x s.wslot = v x := by
  have hround : acqRound s.acceptFlags = .done () (endRound s.wslot u) := by
    rw [acqRound, State.acceptFlags_wslot, h.run, Flow.bind_done]
  obtain ⟨evs, done⟩ := exec_acq_done hs hround
  have hhist : (endRound s.wslot u).hist = s.hist ++ events := by
    rw [endRound_hist, h.hist, beginRound_hist, State.acceptFlags_hist]
  obtain rfl : evs = events := List.append_cancel_left (done.trace.hist.symm.trans hhist)
  refine ⟨_, done, ?_, fun x => ?_⟩
  · rw [State.respond_env, endRound_env, h.env]
  · rw [State.respond_win, endRound_win, h.samples]

/-! ### A round without a failure (R144) -/

section FailureFree

variable {l rest : List Answer} {i : Nat} {s : State} {k : Slot} {x : Sensor}

/-- The answer at a position of a script without failures. -/
theorem drop_eq_ok_cons (hl : ∀ a ∈ l, isOk a = true) (hi : i < l.length) :
    l.drop i = .ok (byteAt l i) :: l.drop (i + 1) := by
  rw [List.drop_eq_getElem_cons hi]
  have hok := hl l[i] (List.getElem_mem hi)
  rw [byteAt, List.getElem?_eq_getElem hi]
  cases ha : l[i] with
  | ok b => rfl
  | nack | stall => rw [ha] at hok; cases hok

/-- One sensor's part of a round on the current port, the answers taken from position `i` on. -/
theorem acqSensor_current_script (hl : ∀ a ∈ l, isOk a = true) (hi : i + 6 ≤ l.length)
    (hp : s.curport = some (portMap x)) (he : s.env = .script (l.drop i ++ rest)) :
    acqSensor k x s = .done () { s with
      win := Grid.set s.win x k (sampleAt l i), winWritten := Grid.set s.winWritten x k true,
      hist := s.hist ++ sensorTrace s.cfg l i, env := .script (l.drop (i + 6) ++ rest), draws := s.draws + 6 } := by
  iterate 6 rw [drop_eq_ok_cons hl (by omega)] at he
  exact acqSensor_current_ok hp he

/-- The same with the selection, which takes the answer at position `i`. -/
theorem acqSensor_other_script (hl : ∀ a ∈ l, isOk a = true) (hi : i + 7 ≤ l.length)
    (hp : s.curport ≠ some (portMap x)) (he : s.env = .script (l.drop i ++ rest)) :
    acqSensor k x s = .done () { s with
      curport := some (portMap x),
      win := Grid.set s.win x k (sampleAt l (i + 1)), winWritten := Grid.set s.winWritten x k true,
      hist := s.hist ++ selectTrace s.cfg x :: sensorTrace s.cfg l (i + 1),
      env := .script (l.drop (i + 7) ++ rest), draws := s.draws + 7 } := by
  iterate 7 rw [drop_eq_ok_cons hl (by omega)] at he
  exact acqSensor_other_ok hp he

/-- The events of a failure-free round on port 6, its answers those from position `i` on: `roundTrace` without the first
selection (R144). -/
def port6Trace (c : Params) (l : List Answer) (i : Nat) : List Event :=
  sensorTrace c l i ++ selectTrace c 1#2 :: sensorTrace c l (i + 7) ++
    selectTrace c 2#2 :: sensorTrace c l (i + 14) ++ selectTrace c 3#2 :: sensorTrace c l (i + 21)

theorem acqSensors_port6 (hl : ∀ a ∈ l, isOk a = true) (hi : l.length = i + 27) (hp : s.curport = some 6#3)
    (he : s.env = .script (l.drop i ++ rest)) (k : Slot) :
    ∃ t, SensorsDone k s t (port6Trace s.cfg l i) rest fun x => sampleAt l (i + 7 * x.toNat) := by
  refine ⟨_, acqSensors_all (acqSensor_current_script hl (by omega) hp he)
    (acqSensor_other_script hl (i := i + 6) (by omega) (by simp [hp, portMap]) rfl)
    (acqSensor_other_script hl (i := i + 13) (by omega) (by simp [portMap]) rfl)
    (acqSensor_other_script hl (i := i + 20) (by omega) (by simp [portMap]) rfl), ?_, ?_, ?_⟩
  · simp [port6Trace]
  · simp [List.drop_eq_nil_of_le, hi]
  · exact forall_sensor (by simp [Grid.get_set])

/-- The selection of another port comes first, and then the sensors are read as on the current port. -/
theorem acqSensors_select_ack {xs : List Sensor} (hp : s.curport ≠ some (portMap x))
    (h : s.writeAnswer s.cfg.muxAddr (mask (portMap x)) true = .ack) :
    acqSensors k (x :: xs) s = acqSensors k (x :: xs) (s.selected (portMap x)) := by
  rw [acqSensors, acqSensors, acqSensor, acqSensor, readReg_select_ack hp h, readReg_current rfl]

theorem acqSensors_otherPort (hl : ∀ a ∈ l, isOk a = true) (hlen : l.length = 28) (hp : s.curport ≠ some 6#3)
    (he : s.env = .script (l ++ rest)) (k : Slot) :
    ∃ t, SensorsDone k s t (roundTrace s.cfg l) rest fun x => sampleAt l (1 + 7 * x.toNat) := by
  have hcons : l = .ok (byteAt l 0) :: l.drop 1 := drop_eq_ok_cons (i := 0) hl (by omega)
  rw [hcons] at he
  have hack : s.writeAnswer s.cfg.muxAddr (mask 6#3) true = .ack := State.writeAnswer_script he _ _ _
  obtain ⟨t, ht⟩ := acqSensors_port6 (s := s.selected 6#3) (rest := rest) hl (i := 1) (by omega) rfl
    (State.afterWrite_env_script he _ _ _) k
  refine ⟨t, (acqSensors_select_ack (x := 0#2) hp hack).trans ht.run, ?_, ht.env, ht.samples⟩
  exact ht.hist.trans (List.append_assoc _ _ _)

end FailureFree

/-- Settles O23: a selection, and the round from port 6; what it did fixes the next state. -/
theorem failureFreeRound : Obligations.FailureFreeRound := by
  intro s l rest hs hp hlen hl he
  obtain ⟨u, hu⟩ := acqSensors_otherPort (s := beginRound s.acceptFlags) (rest := rest) hl hlen
    (by simpa using hp) (by simpa using he) s.wslot
  obtain ⟨t, done, henv, hsamples⟩ := hu.exec_acq hs
  rw [beginRound_cfg, State.acceptFlags_cfg] at done
  obtain ⟨hexec, round, trace, frame, hrdata, hidle, hresponses⟩ := done
  have hlberr : t.lberr = false := trace.lberr
  rw [hlberr] at hresponses
  refine ⟨t, hexec, ?_, hsamples 0#2, hsamples 1#2, hsamples 2#2, hsamples 3#2, round.other⟩
  exact State.ext trace.curport round.wslot round.wfull rfl frame.out hrdata (trace.berr.trans (Bool.or_false _)) hlberr
    frame.lref (hidle.trans hs.symm) trace.hist frame.cfg henv trace.draws rfl frame.host hresponses frame.regReads

/-- Settles O24: the round from port 6, with no selection before it. -/
theorem failureFreeRoundFromPort6 : Obligations.FailureFreeRoundFromPort6 := by
  intro s l rest hs hp hlen hl he
  obtain ⟨u, hu⟩ := acqSensors_port6 (s := beginRound s.acceptFlags) (rest := rest) hl (i := 0) (by omega)
    (by simpa using hp) (by simpa using he) s.wslot
  obtain ⟨t, done, henv, hsamples⟩ := hu.exec_acq hs
  rw [beginRound_cfg, State.acceptFlags_cfg] at done
  exact ⟨t, done.exec, done.idle, done.trace.curport, henv, done.trace.hist, rfl,
    hsamples 0#2, hsamples 1#2, hsamples 2#2, hsamples 3#2⟩

/-! ### A round whose control writes all fail (R143) -/

section NoMultiplexer

variable {l : List Answer} {s : State} {k : Slot} {x : Sensor}

theorem readReg_select_nack_script {p : Port} {r : Byte} (hp : s.curport ≠ some p)
    (he : s.env = .script (.nack :: l)) :
    readReg p r s = .done 0#8 { s with
      curport := none, berr := true, lberr := true,
      hist := s.hist ++ [.write s.cfg.muxAddr (mask p) true .nack], env := .script l, draws := s.draws + 1 } := by
  rw [readReg_select_nack hp (State.writeAnswer_script he _ _ _), State.afterWrite_env_script he]
  rfl

/-- One sensor's part of a round: three selections that fail, and a zero sample. -/
theorem acqSensor_nack (hp : s.curport ≠ some (portMap x)) (he : s.env = .script (.nack :: .nack :: .nack :: l)) :
    acqSensor k x s = .done () { s with
      curport := none, berr := true, lberr := true,
      win := Grid.set s.win x k ⟨0#8, 0#8, 0#8⟩, winWritten := Grid.set s.winWritten x k true,
      hist := s.hist ++ List.replicate 3 (.write s.cfg.muxAddr (mask (portMap x)) true .nack),
      env := .script l, draws := s.draws + 3 } := by
  rw [acqSensor, readReg_select_nack_script hp he, Flow.bind_done, readReg_select_nack_script (by simp) rfl,
    Flow.bind_done, readReg_select_nack_script (by simp) rfl, Flow.bind_done]
  simp [State.setSample, decodeAxis, List.replicate]

theorem acqSensors_nack {rest : List Answer} (hp : s.curport ≠ some 6#3)
    (he : s.env = .script (List.replicate 12 .nack ++ rest)) (k : Slot) :
    ∃ t, SensorsDone k s t
      (allSensors.flatMap fun x => List.replicate 3 (.write s.cfg.muxAddr (mask (portMap x)) true .nack)) rest
      fun _ => ⟨0#8, 0#8, 0#8⟩ := by
  refine ⟨_, acqSensors_all (acqSensor_nack hp he) (acqSensor_nack (by simp) rfl) (acqSensor_nack (by simp) rfl)
    (acqSensor_nack (by simp) rfl), ?_, rfl, ?_⟩
  · simp [allSensors]
  · exact forall_sensor (by simp [Grid.get_set])

end NoMultiplexer

/-- Settles O26: the events are twelve failed selections, which fix CURPORT and the flags. -/
theorem roundWithoutMultiplexer : Obligations.RoundWithoutMultiplexer := by
  rintro s _ rest hs hp rfl he
  obtain ⟨u, hu⟩ := acqSensors_nack (s := beginRound s.acceptFlags) (rest := rest)
    (by simpa using hp) (by simpa using he) s.wslot
  obtain ⟨t, done, henv, hsamples⟩ := hu.exec_acq hs
  rw [beginRound_cfg, State.acceptFlags_cfg] at done
  obtain ⟨hexec, round, trace, -, -, hidle, hresponses⟩ := done
  have hlberr : t.lberr = true := trace.lberr
  rw [hlberr] at hresponses
  exact ⟨t, hexec, hidle, trace.curport, henv, trace.berr.trans (Bool.or_true _), hlberr, round.wslot, trace.hist,
    hsamples, hresponses⟩

end Sys2Proof.Machine
end

section
/-! PROOFS. The filter's arithmetic (42_filter R160 to R166, R171): one axis, from the sum of its five samples. -/

namespace Sys2Proof.Machine

/-! ### The filter as a function of the sum (R161) -/

section FilterSum

variable {sum : Int}

theorem filterSum_dead (h : -50 < sum ∧ sum < 50) : filterSum sum = 0 := if_pos h

/-- Outside the dead zone the saturation does not act on a sum of five signed bytes (R165). -/
theorem filterSum_live (hlow : -640 ≤ sum) (hhigh : sum ≤ 635) (h : ¬ (-50 < sum ∧ sum < 50)) :
    filterSum sum = (sum + 2) / 5 := by
  have hsat : filterSum sum = sat8 ((sum + 2) / 5) := if_neg h
  rw [hsat, sat8]
  omega

end FilterSum

section Axis

variable (v0 v1 v2 v3 v4 : I8)

theorem toInt_filterAxis : (filterAxis v0 v1 v2 v3 v4).toInt = filterSum (axisSum v0 v1 v2 v3 v4) := by
  obtain ⟨hlow, hhigh⟩ := axisSum_range v0 v1 v2 v3 v4
  obtain ⟨hmin, hmax, -⟩ := filterSum_range hlow hhigh
  exact toInt_ofInt_byte hmin hmax

variable {v0 v1 v2 v3 v4}

theorem filterAxis_dead (h : -50 < axisSum v0 v1 v2 v3 v4 ∧ axisSum v0 v1 v2 v3 v4 < 50) :
    filterAxis v0 v1 v2 v3 v4 = 0#8 := by rw [filterAxis, filterSum_dead h]; rfl

theorem toInt_filterAxis_live (h : ¬ (-50 < axisSum v0 v1 v2 v3 v4 ∧ axisSum v0 v1 v2 v3 v4 < 50)) :
    (filterAxis v0 v1 v2 v3 v4).toInt = (axisSum v0 v1 v2 v3 v4 + 2) / 5 := by
  obtain ⟨hlow, hhigh⟩ := axisSum_range v0 v1 v2 v3 v4
  rw [toInt_filterAxis, filterSum_live hlow hhigh h]

end Axis

/-- Settles O28: inside the dead zone the result is 0; outside it is one floor division, and so are the other forms. -/
theorem filterAxisDefinition : Obligations.FilterAxisDefinition := by
  intro v0 v1 v2 v3 v4 sum
  have hsum : sum = axisSum v0 v1 v2 v3 v4 := rfl
  clear_value sum
  subst hsum
  obtain ⟨hlow, hhigh⟩ := axisSum_range v0 v1 v2 v3 v4
  refine ⟨hhigh, hlow, fun h1 h2 => filterAxis_dead ⟨h1, h2⟩, fun hlive => ?_⟩
  rw [toInt_filterAxis_live hlive]
  generalize axisSum v0 v1 v2 v3 v4 = sum at hlow hhigh
  have hfloor : ⌊((sum : ℚ) + 2) / 5⌋ = (sum + 2) / 5 := by
    exact_mod_cast Rat.floor_intCast_div_natCast (sum + 2) 5
  have hround : ⌊(2 * (sum : ℚ) + 5) / 10⌋ = (2 * sum + 5) / 10 := by
    exact_mod_cast Rat.floor_intCast_div_natCast (2 * sum + 5) 10
  rw [hfloor, hround]
  split_ifs <;> omega

/-! ### The filter as the source states it (R160, R164) -/

theorem deadZoneAverage_eq (v0 v1 v2 v3 v4 : I8) : deadZoneAverage v0 v1 v2 v3 v4 =
    if -50 < axisSum v0 v1 v2 v3 v4 ∧ axisSum v0 v1 v2 v3 v4 < 50 then 0 else (axisSum v0 v1 v2 v3 v4 : ℚ) / 5 := by
  have hdead (sum : ℤ) : |(sum : ℚ) / 5| < 10 ↔ -50 < sum ∧ sum < 50 := by
    rw [abs_div, abs_of_pos (by norm_num : (0 : ℚ) < 5), div_lt_iff₀ (by norm_num), abs_lt]
    norm_num
    norm_cast
  simp only [deadZoneAverage, hdead]

/-- The floor of `(sum + 2) / 5` is at most two fifths away from a fifth of the sum. -/
theorem abs_floor_sub_fifth_lt (sum : ℤ) : |(((sum + 2) / 5 : ℤ) : ℚ) - (sum : ℚ) / 5| < 1 / 2 := by
  have hlow : sum - 2 ≤ 5 * ((sum + 2) / 5) := by omega
  have hhigh : 5 * ((sum + 2) / 5) ≤ sum + 2 := by omega
  generalize (sum + 2) / 5 = q at hlow hhigh
  have hlow' : (sum : ℚ) - 2 ≤ 5 * q := by exact_mod_cast hlow
  have hhigh' : 5 * (q : ℚ) ≤ sum + 2 := by exact_mod_cast hhigh
  rw [abs_lt]
  constructor <;> linarith

theorem abs_filterAxis_sub_lt (v0 v1 v2 v3 v4 : I8) :
    |((filterAxis v0 v1 v2 v3 v4).toInt : ℚ) - deadZoneAverage v0 v1 v2 v3 v4| < 1 / 2 := by
  rw [deadZoneAverage_eq]
  split_ifs with hdead
  · simp [filterAxis_dead hdead]
  · rw [toInt_filterAxis_live hdead]
    exact abs_floor_sub_fifth_lt _

/-- Settles O29: two integers, one less and one at most a half from the same average, are less than 1 apart. -/
theorem filterIsNearestToAverage : Obligations.FilterIsNearestToAverage := by
  intro v0 v1 v2 v3 v4
  have hnear := abs_filterAxis_sub_lt v0 v1 v2 v3 v4
  refine ⟨hnear, fun n hn => ?_⟩
  generalize (filterAxis v0 v1 v2 v3 v4).toInt = q at hnear
  generalize deadZoneAverage v0 v1 v2 v3 v4 = avg at hnear hn
  have hclose : |((n - q : ℤ) : ℚ)| < 1 := by
    rw [abs_lt] at hnear ⊢
    rw [abs_le] at hn
    push_cast
    constructor <;> linarith
  have hzero : n - q = 0 := Int.abs_lt_one_iff.1 (by exact_mod_cast hclose)
  omega

/-! ### The sum and its width (R162) -/

/-- An 11-bit accumulator holds every sum of five signed bytes exactly. -/
theorem toInt_signExtend_sum (v0 v1 v2 v3 v4 : I8) :
    (v0.signExtend 11 + v1.signExtend 11 + v2.signExtend 11 + v3.signExtend 11 + v4.signExtend 11).toInt =
      axisSum v0 v1 v2 v3 v4 := by
  obtain ⟨hlow, hhigh⟩ := axisSum_range v0 v1 v2 v3 v4
  have hext (v : I8) : (v.signExtend 11).toInt = v.toInt := BitVec.toInt_signExtend_of_le (by omega)
  simp only [BitVec.toInt_add, Int.bmod_add_bmod, hext]
  exact Int.bmod_eq_of_le (by unfold axisSum at hlow; omega) (by unfold axisSum at hhigh; omega)

/-- Settles O30: at 11 bits no addition leaves the range; at 10 bits five times 127 does. -/
theorem sumNeedsElevenBits : Obligations.SumNeedsElevenBits := by
  refine ⟨fun v0 v1 v2 v3 v4 => ?_, ?_, ?_, ?_, fun l m h => (h.map _).sum_eq⟩
  · obtain ⟨hlow, hhigh⟩ := axisSum_range v0 v1 v2 v3 v4
    exact ⟨hlow, hhigh, toInt_signExtend_sum v0 v1 v2 v3 v4⟩
  · exact ⟨0x80#8, 0x80#8, 0x80#8, 0x80#8, 0x80#8, by decide⟩
  · exact ⟨127#8, 127#8, 127#8, 127#8, 127#8, by decide⟩
  · exact ⟨127#8, 127#8, 127#8, 127#8, 127#8, by decide⟩

/-! ### The dead zone (R163) -/

theorem filterAxis_eq_zero_iff {v0 v1 v2 v3 v4 : I8} :
    filterAxis v0 v1 v2 v3 v4 = 0#8 ↔ -50 < axisSum v0 v1 v2 v3 v4 ∧ axisSum v0 v1 v2 v3 v4 < 50 := by
  refine ⟨fun hzero => ?_, filterAxis_dead⟩
  by_contra hlive
  have hvalue := toInt_filterAxis_live hlive
  rw [hzero, BitVec.toInt_zero] at hvalue
  omega

/-- Settles O31: 0 exactly in the dead zone, whose first sums outside are divided. -/
theorem deadZoneIsStrict : Obligations.DeadZoneIsStrict := by
  intro v0 v1 v2 v3 v4
  refine ⟨?_, fun h => ?_, fun h => ?_⟩
  · rw [filterAxis_eq_zero_iff, abs_le]
    omega
  · rw [toInt_filterAxis_live (by omega), h]; rfl
  · rw [toInt_filterAxis_live (by omega), h]; rfl

/-! ### Saturation (R165) -/

/-- Settles O32: the range of the sum bounds the rounded average to that of a signed byte. -/
theorem saturationNeverActs : Obligations.SaturationNeverActs := by
  intro v0 v1 v2 v3 v4 q
  obtain ⟨hlow, hhigh⟩ := axisSum_range v0 v1 v2 v3 v4
  have hmax : q ≤ 127 := by omega
  have hmin : -128 ≤ q := by omega
  refine ⟨hmax, hmin, ?_, toInt_ofInt_byte hmin hmax, by omega, by omega⟩
  rw [sat8, min_eq_right hmax, max_eq_right hmin]

/-! ### The outputs (R166, R171) -/

/-- Five equal samples that the filter can put out are put out unchanged. -/
theorem filterAxis_replicate {b : I8} (h : filterOutput b) : filterAxis b b b b b = b := by
  have hsum : axisSum b b b b b = 5 * b.toInt := by unfold axisSum; ring
  rcases h with hzero | hlive
  · rw [filterAxis_dead (by omega)]
    exact BitVec.eq_of_toInt_eq hzero.symm
  · apply BitVec.eq_of_toInt_eq
    rw [toInt_filterAxis_live (by omega), hsum]
    omega

theorem filterAxis_small {v0 v1 v2 v3 v4 : I8} (h : ∀ v ∈ [v0, v1, v2, v3, v4], |v.toInt| < 10) :
    filterAxis v0 v1 v2 v3 v4 = 0#8 := by
  simp only [List.forall_mem_cons, abs_lt] at h
  apply filterAxis_dead
  unfold axisSum
  omega

theorem filterOutput_iff_toNat (b : Byte) :
    filterOutput b ↔ b = 0x00#8 ∨ (0x0A ≤ b.toNat ∧ b.toNat ≤ 0x7F) ∨ (0x80 ≤ b.toNat ∧ b.toNat ≤ 0xF6) := by
  have hlt := b.isLt
  rw [filterOutput, BitVec.toInt_eq_toNat_cond, ← BitVec.toNat_inj, BitVec.toNat_ofNat]
  split_ifs <;> omega

/-- Settles O33: which values there are, that each is reached, and their bytes, each by its lemma. -/
theorem filterOutputs : Obligations.FilterOutputs :=
  ⟨filterOutput_filterAxis, fun _ => filterAxis_replicate, fun _ _ _ _ _ => filterAxis_small, filterOutput_iff_toNat⟩

/-- Settles O39: both bounds are those of small samples; one sample of 10 among zeros lies in the dead zone. -/
theorem smallSamplesFilterToZero : Obligations.SmallSamplesFilterToZero :=
  ⟨fun _ _ _ _ _ => filterAxis_small, fun _ _ _ _ _ h => filterAxis_small fun v hv => (h v hv).trans (by decide),
    10#8, 0#8, 0#8, 0#8, 0#8, by decide, by decide⟩

end Sys2Proof.Machine
end

section
/-! PROOFS. The command FILT (42_filter R167, R168, R170): executed, refused, and what its bytes depend on. -/

namespace Sys2Proof.Machine

theorem exec_filt_done {x : Sensor} {s : State} (hs : s.idle) (hw : s.wfull = true) :
    exec (.filt x) s = .next ((filtSensor x s.acceptFlags).respond (responseWord false false 0#8)) := by
  rw [exec_filt_full x s hw]
  exact execute_next.2 ⟨hs, by simp [filtBody, finishCommand]⟩

/-- The result bytes of an executed FILT are the lanes of its sensor (R167). -/
theorem exec_filt_read {x : Sensor} {s t : State} (h : exec (.filt x) s = .next t) (hw : s.wfull = true) {j : Nat}
    (hj : j < 3) : t.out.read (outOffset s.cfg x j) = laneByte s.win x j := by
  rcases exec_filt_next h with ⟨-, rfl⟩ | ⟨hpartial, -⟩
  · exact filtSensor_read x s.acceptFlags hj
  · simp [hw] at hpartial

/-- Settles O34: FILT is executed, its frame fixes the state but OUT, and its lanes the three bytes. -/
theorem filtResult : Obligations.FiltResult := by
  intro x s hs hw
  have hexec := exec_filt_done (x := x) hs hw
  refine ⟨_, hexec, ?_, exec_filt_read hexec hw (j := 0) (by omega), exec_filt_read hexec hw (j := 1) (by omega),
    exec_filt_read hexec hw (j := 2) (by omega)⟩
  have hframe := exec_filt_frame hexec
  rwa [State.respond_lref, filtSensor_lref, State.acceptFlags_lref, State.respond_responses, filtSensor_responses,
    State.acceptFlags_responses] at hframe

/-- Settles O35: the refused path is the flags and the response, and nothing else. -/
theorem filtRefusedOnPartialWindow : Obligations.FiltRefusedOnPartialWindow := by
  intro x s hs hw
  rw [exec_filt_partial x s hw]
  exact executeRefused_next.2 ⟨hs, rfl⟩

/-- Settles O52: the frame of FILT, executed or refused, holds all of these; and it was accepted by an idle block. -/
theorem filtCausesNoBusActivity : Obligations.FiltCausesNoBusActivity := by
  intro x s t h
  have hidle := exec_idle h
  rw [exec_filt_frame h]
  exact ⟨rfl, rfl, rfl, rfl, hidle, rfl⟩

/-- Settles O37: the window is the same for the second FILT, so it writes the same lanes and leaves the rest. -/
theorem filtIsIdempotent : Obligations.FiltIsIdempotent := by
  intro x s t hw h
  have hidle := exec_idle h
  obtain ⟨hwfull, hstuck, hcfg, hwin⟩ : t.wfull = true ∧ t.stuck = false ∧ t.cfg = s.cfg ∧ t.win = s.win := by
    rw [exec_filt_frame h]
    exact ⟨hw, hidle, rfl, rfl⟩
  have hagain := exec_filt_done (x := x) hstuck hwfull
  refine ⟨_, hagain, fun a => ?_⟩
  by_cases ha : ∃ j, j < 3 ∧ a = outOffset t.cfg x j
  · obtain ⟨j, hj, rfl⟩ := ha
    rw [exec_filt_read hagain hwfull hj, hwin, hcfg, exec_filt_read h hw hj]
  · exact exec_filt_read_other hagain fun j hj he => ha ⟨j, hj, he⟩

theorem filterLane_congr {v w : Grid Vector3i8} {x : Sensor} {axis : Vector3i8 → I8}
    (h : ∀ k, axis (Grid.get v x k) = axis (Grid.get w x k)) : filterLane v x axis = filterLane w x axis := by
  simp only [filterLane, h]

/-- Settles O38: each of the three bytes is a lane of the window, which reads its own axis of its own sensor. -/
theorem lanesAreIndependent : Obligations.LanesAreIndependent := by
  intro x s t s' t' hs ht hcfg h h'
  have hbyte (j : Nat) (hj : j < 3) (hlane : laneByte s.win x j = laneByte t.win x j) :
      s'.out.read (outOffset s.cfg x j) = t'.out.read (outOffset s.cfg x j) := by
    rw [exec_filt_read h hs hj, hlane, hcfg, exec_filt_read h' ht hj]
  exact ⟨fun hx => hbyte 0 (by omega) (filterLane_congr hx), fun hy => hbyte 1 (by omega) (filterLane_congr hy),
    fun hz => hbyte 2 (by omega) (filterLane_congr hz)⟩

end Sys2Proof.Machine
end

section
/-! PROOFS. The command RUN (42_filter R169, R173): the rounds it completes, and how it ends. -/

namespace Sys2Proof.Machine

/-! ### Several rounds that complete -/

theorem acqRounds_succ_done {n : Nat} {s t : State} (h : acqRounds (n + 1) s = .done () t) :
    ∃ u, acqRound s = .done () u ∧ acqRounds n u = .done () t := by
  unfold acqRounds at h
  cases hround : acqRound s with
  | done a u => exact ⟨u, rfl, by simpa [hround] using h⟩
  | hung u => simp [hround] at h

/-- Before slot 4 a round moves the cursor up by one (R142). -/
theorem RoundDone.wslot_val {s t : State} (h : RoundDone s t) (h4 : s.wslot ≠ 4) : t.wslot.val = s.wslot.val + 1 := by
  have next : ∀ k : Slot, k ≠ 4 → (k + 1).val = k.val + 1 := by decide
  rw [h.wslot, if_neg h4, next _ h4]

/-- The rounds that are left of a cycle fill the window. -/
theorem acqRounds_wfull {n : Nat} {s t : State} (hn : s.wslot.val + n = 5) (h : acqRounds n s = .done () t) :
    t.wfull = true := by
  induction n generalizing s with
  | zero => omega
  | succ n ih =>
    obtain ⟨u, hu, hrest⟩ := acqRounds_succ_done h
    have round := acqRound_done hu
    by_cases h4 : s.wslot = 4
    · obtain rfl : n = 0 := by rw [h4] at hn; omega
      obtain rfl : u = t := (Flow.done.inj hrest).2
      rw [round.wfull, if_pos h4]
    · exact ih (by rw [round.wslot_val h4]; omega) hrest

/-! ### How RUN ends -/

/-- The state of a RUN whose rounds left `u`: the filter of every sensor, and the response. -/
def runEnd (u : State) : State :=
  (filtSensors allSensors u).respond (responseWord false (filtSensors allSensors u).lberr 0#8)

@[simp] theorem runEnd_curport (u : State) : (runEnd u).curport = u.curport := by
  rw [runEnd, State.respond_curport, filtSensors_curport]
@[simp] theorem runEnd_wslot (u : State) : (runEnd u).wslot = u.wslot := by
  rw [runEnd, State.respond_wslot, filtSensors_wslot]
@[simp] theorem runEnd_wfull (u : State) : (runEnd u).wfull = u.wfull := by
  rw [runEnd, State.respond_wfull, filtSensors_wfull]
@[simp] theorem runEnd_win (u : State) : (runEnd u).win = u.win := by
  rw [runEnd, State.respond_win, filtSensors_win]
@[simp] theorem runEnd_lberr (u : State) : (runEnd u).lberr = u.lberr := by
  rw [runEnd, State.respond_lberr, filtSensors_lberr]
@[simp] theorem runEnd_stuck (u : State) : (runEnd u).stuck = u.stuck := by
  rw [runEnd, State.respond_stuck, filtSensors_stuck]
@[simp] theorem runEnd_hist (u : State) : (runEnd u).hist = u.hist := by
  rw [runEnd, State.respond_hist, filtSensors_hist]
@[simp] theorem runEnd_cfg (u : State) : (runEnd u).cfg = u.cfg := by
  rw [runEnd, State.respond_cfg, filtSensors_cfg]
@[simp] theorem runEnd_env (u : State) : (runEnd u).env = u.env := by
  rw [runEnd, State.respond_env, filtSensors_env]
@[simp] theorem runEnd_winWritten (u : State) : (runEnd u).winWritten = u.winWritten := by
  rw [runEnd, State.respond_winWritten, filtSensors_winWritten]
@[simp] theorem runEnd_out (u : State) : (runEnd u).out = (filtSensors allSensors u).out := by
  rw [runEnd, State.respond_out]

/-- RUN completes exactly when its five rounds do, from slot 0 with WFULL cleared (R169). -/
theorem exec_run_completes_iff {s t : State} : exec .run s = .next t ∧ t.idle ↔
    s.idle ∧ ∃ u, acqRounds Config.window (s.acceptFlags.setCursor 0 false) = .done () u ∧ t = runEnd u := by
  constructor
  · rintro ⟨h, hidle⟩
    refine ⟨exec_idle h, ?_⟩
    rcases exec_run_next h with ⟨_, u, -, hu, -, -, rfl⟩ | ⟨-, hu, -⟩
    · exact ⟨u, hu, rfl⟩
    · obtain ⟨hstuck, -⟩ := FlowTrace.hungSilent hu (runRounds_trace _)
      exact absurd (hidle.symm.trans hstuck) (by decide)
  · rintro ⟨hs, u, hu, rfl⟩
    obtain ⟨e, trace, hstall, -⟩ := runRounds_trace s.acceptFlags
    rw [hu] at trace hstall
    refine ⟨execute_next.2 ⟨hs, by rw [runBody, hu]; rfl⟩, ?_⟩
    rw [State.idle, runEnd_stuck]
    exact trace.stuck.trans (by rw [hstall, State.acceptFlags_stuck, hs]; rfl)

/-- The result bytes of a completed RUN are the lanes of the window it ends with (R167). -/
theorem runEnd_read (u : State) (x : Sensor) {j : Nat} (hj : j < 3) :
    (runEnd u).out.read (outOffset u.cfg x j) = laneByte (runEnd u).win x j := by
  rw [runEnd_out, runEnd_win, filtSensors_read allSensors u (mem_allSensors x) hj]

/-- Five rounds from slot 0 leave a full window, all of it written. -/
theorem runRounds_window {s u : State} (hu : acqRounds Config.window (s.setCursor 0 false) = .done () u) :
    u.wslot = 0 ∧ u.wfull = true ∧ ∀ (x : Sensor) (k : Slot), Grid.get u.winWritten x k = true := by
  have window : WindowInv u := by
    simpa [hu] using acqRounds_windowInv Config.window (windowInv_setCursor_zero s)
  have hfull : u.wfull = true := acqRounds_wfull rfl hu
  exact ⟨window.fullAtZero hfull, hfull, window.fullWritten hfull⟩

/-- A command that does not hang delivers its response. -/
theorem exec_answered {i : Instr} {s t : State} (h : exec i s = .next t) (hidle : t.idle) :
    Answered (responseData i t) s t := by
  rcases exec_ends h with ⟨hstuck, -⟩ | hanswer
  · exact absurd (hidle.symm.trans hstuck) (by decide)
  · exact hanswer

/-- Settles O40: 140 answers without a stall carry the five rounds to their end; they fill the window. -/
theorem runCompletes : Obligations.RunCompletes := by
  intro s l rest hs hlen hl he
  obtain ⟨u, hu, -⟩ := acqRounds_lasts Config.window (n := 0) (s := s.acceptFlags.setCursor 0 false) (rest := rest)
    ⟨l, he, hl, by simpa [Config.window] using hlen⟩
  obtain ⟨hexec, hidle⟩ := exec_run_completes_iff.2 ⟨hs, u, hu, rfl⟩
  obtain ⟨hwslot, hwfull, hwritten⟩ := runRounds_window hu
  obtain ⟨-, -, hlref, hcfg, -⟩ := runFrame s _ hexec
  obtain ⟨-, hresponses⟩ := exec_answered hexec hidle
  rw [hlref] at hresponses
  rw [runEnd_cfg] at hcfg
  refine ⟨runEnd u, hexec, hidle, (runEnd_wslot u).trans hwslot, (runEnd_wfull u).trans hwfull, hlref, ?_, ?_,
    hresponses⟩
  · rwa [runEnd_winWritten]
  · intro x
    rw [← hcfg]
    exact ⟨runEnd_read u x (j := 0) (by omega), runEnd_read u x (j := 1) (by omega), runEnd_read u x (j := 2) (by omega)⟩

/-- Settles O43: a RUN whose rounds completed is idle; the trace of rounds that hang leaves all three alone. -/
theorem hungRunKeepsOut : Obligations.HungRunKeepsOut := by
  intro s t h hstuck
  rcases exec_run_next h with ⟨_, u, -, -, -, hidle, rfl⟩ | ⟨e, -, trace⟩
  · rw [State.respond_stuck, filtSensors_stuck, hidle] at hstuck
    exact absurd hstuck (by decide)
  · exact ⟨trace.out, trace.responses, trace.rdata⟩

end Sys2Proof.Machine
end

section
/-! PROOFS. RUN beside other runs (42_filter R169): beside the five ACQ and four FILT it stands for, and beside a RUN from
another window. -/

namespace Sys2Proof.Machine

theorem FlowRel.of_done {α : Type} {D H : State → State → Prop} {x y : Flow α} {a : α} {s : State}
    (h : FlowRel D H x y) (hx : x = .done a s) : ∃ t, y = .done a t ∧ D s t := by
  subst hx
  cases y with
  | done b t =>
    obtain ⟨rfl, hst⟩ := h
    exact ⟨t, rfl, hst⟩
  | hung t => exact h.elim

/-! ### The rounds of RUN, and ACQ after ACQ (R169, item 5) -/

/-- A state whose LBERR and whose list of responses are replaced. -/
def State.withRecord (s : State) (l : Bool) (w : List ResponseWord) : State := { s with lberr := l, responses := w }

/-- Two runs of the same bus primitives, cut into commands in different ways: at each moment they differ in LBERR and in the
responses given so far. -/
def SameButRecord (s t : State) : Prop := ∃ l w, t = s.withRecord l w

theorem sameButRecord_roundRel : RoundRel SameButRecord where
  port := by rintro s t ⟨l, w, rfl⟩; rfl
  cfg := by rintro s t ⟨l, w, rfl⟩; rfl
  env := by rintro s t ⟨l, w, rfl⟩; rfl
  draws := by rintro s t ⟨l, w, rfl⟩; rfl
  logEvent := by rintro s t e v ⟨l, w, rfl⟩; exact ⟨l, w, rfl⟩
  setCurport := by rintro s t c ⟨l, w, rfl⟩; exact ⟨l, w, rfl⟩
  raise := by rintro s t ⟨l, w, rfl⟩; exact ⟨true, w, rfl⟩
  hang := by rintro s t ⟨l, w, rfl⟩; exact ⟨l, w, rfl⟩
  wslot := by rintro s t ⟨l, w, rfl⟩; rfl
  wfull := by rintro s t ⟨l, w, rfl⟩; rfl
  setCursor := by rintro s t k f ⟨l, w, rfl⟩; exact ⟨l, w, rfl⟩
  setSample := by rintro s t x k v ⟨l, w, rfl⟩; exact ⟨l, w, rfl⟩

theorem SameButRecord.symm {s t : State} (h : SameButRecord s t) : SameButRecord t s := by
  obtain ⟨l, w, rfl⟩ := h
  exact ⟨s.lberr, s.responses, rfl⟩

theorem SameButRecord.eq {s t : State} (h : SameButRecord s t) :
    { s with lberr := t.lberr, responses := t.responses } = t := by
  obtain ⟨l, w, rfl⟩ := h
  rfl

theorem SameButRecord.respond {s t : State} (h : SameButRecord s t) (w : ResponseWord) :
    SameButRecord s (t.respond w) := by
  obtain ⟨l, v, rfl⟩ := h
  exact ⟨l, v ++ [w], rfl⟩

/-- The next command clears LBERR; LREF was 0 since the first. -/
theorem SameButRecord.acceptFlags {s t : State} (h : SameButRecord s t) (hlref : s.lref = false) :
    SameButRecord s t.acceptFlags := by
  obtain ⟨l, w, rfl⟩ := h
  exact ⟨false, w, by ext1 <;> simp [State.withRecord, hlref]⟩

theorem SameButRecord.stuck {s t : State} (h : SameButRecord s t) : t.stuck = s.stuck := by
  obtain ⟨l, w, rfl⟩ := h; rfl

theorem SameButRecord.filtSensor {s t : State} (h : SameButRecord s t) (x : Sensor) :
    SameButRecord (filtSensor x s) (filtSensor x t) := by
  obtain ⟨l, w, rfl⟩ := h
  refine ⟨l, w, ?_⟩
  have hout := filtSensor_out_congr (s := s) (t := s.withRecord l w) x rfl rfl rfl
  ext1
  case out => simpa [State.withRecord] using hout
  all_goals simp [State.withRecord]

theorem acqRound_done_flags {s t : State} (h : acqRound s = .done () t) : t.stuck = s.stuck ∧ t.lref = s.lref := by
  obtain ⟨e, trace, hstall, -⟩ := acqRound_trace s
  rw [h] at trace hstall
  exact ⟨trace.stuck.trans (by rw [hstall]; exact Bool.or_false _), trace.lref⟩

theorem SameButRecord.exec_acq {s t u : State} (h : SameButRecord s t) (hs : s.idle) (hlref : s.lref = false)
    (hu : acqRound s = .done () u) : ∃ v, exec .acq t = .next v ∧ SameButRecord u v := by
  obtain ⟨v, hv, hrel⟩ := (sameButRecord_roundRel.acqRound (h.acceptFlags hlref)).of_done hu
  exact ⟨_, execute_next.2 ⟨h.stuck.trans hs, by rw [acqBody, hv]; rfl⟩, hrel.respond (responseWord false v.lberr 0#8)⟩

theorem execAll_cons {i : Instr} {s t : State} (h : exec i s = .next t) (rest : List Instr) :
    execAll (i :: rest) s = execAll rest t := by rw [execAll, h]

/-- ACQ clears the flags itself. -/
theorem execAll_acq_acceptFlags (s : State) (rest : List Instr) :
    execAll (.acq :: rest) s.acceptFlags = execAll (.acq :: rest) s := by
  have hexec : exec .acq s.acceptFlags = exec .acq s := rfl
  rw [execAll, execAll, hexec]

/-- Rounds that complete, as so many ACQ. -/
theorem SameButRecord.execAll_acq (n : Nat) {s t u : State} (h : SameButRecord s t) (hs : s.idle)
    (hlref : s.lref = false) (hu : acqRounds n s = .done () u) (rest : List Instr) :
    ∃ v, execAll (List.replicate n .acq ++ rest) t = execAll rest v ∧ SameButRecord u v ∧ u.idle := by
  induction n generalizing s t with
  | zero =>
    obtain rfl : s = u := (Flow.done.inj hu).2
    exact ⟨t, rfl, h, hs⟩
  | succ n ih =>
    obtain ⟨s', hround, hrest⟩ := acqRounds_succ_done hu
    obtain ⟨t', hexec, hrel⟩ := h.exec_acq hs hlref hround
    obtain ⟨hstuck, hlref'⟩ := acqRound_done_flags hround
    obtain ⟨v, hv, hend⟩ := ih hrel (hstuck.trans hs) (hlref'.trans hlref) hrest
    exact ⟨v, (execAll_cons hexec _).trans hv, hend⟩

/-- The filter of several sensors, as so many FILT. -/
theorem SameButRecord.execAll_filt (l : List Sensor) {s t : State} (h : SameButRecord s t) (hs : s.idle)
    (hlref : s.lref = false) (hw : s.wfull = true) :
    ∃ v, execAll (l.map .filt) t = .next v ∧ SameButRecord (filtSensors l s) v := by
  induction l generalizing s t with
  | nil => exact ⟨t, rfl, h⟩
  | cons x l ih =>
    have hexec := exec_filt_done (x := x) (h.stuck.trans hs) ((sameButRecord_roundRel.wfull h).trans hw)
    have hrel := ((h.acceptFlags hlref).filtSensor x).respond (responseWord false false 0#8)
    obtain ⟨v, hv, hend⟩ := ih hrel ((filtSensor_stuck x s).trans hs) ((filtSensor_lref x s).trans hlref)
      ((filtSensor_wfull x s).trans hw)
    exact ⟨v, (execAll_cons hexec _).trans hv, hend⟩

/-- The cursor's restart is the first round's own, where the cursor stands on slot 0 (R142). -/
theorem acqRounds_setCursor_zero {s : State} (h : s.wslot = 0) (n : Nat) :
    acqRounds (n + 1) (s.setCursor 0 false) = acqRounds (n + 1) s := by
  have hbegin : beginRound (s.setCursor 0 false) = beginRound s := by
    rw [beginRound, beginRound, if_pos h, h]; rfl
  rw [acqRounds, acqRounds, acqRound, acqRound, hbegin, h]; rfl

/-- Settles O41: the rounds go side by side with five ACQ, and the filter of each sensor with its FILT. -/
theorem runEqualsRoundsThenFilters : Obligations.RunEqualsRoundsThenFilters := by
  intro s t hslot h hidle
  obtain ⟨hs, u, hu, rfl⟩ := exec_run_completes_iff.1 ⟨h, hidle⟩
  obtain ⟨-, hwfull, -⟩ := runRounds_window hu
  have hrounds := (acqRounds_setCursor_zero (s := s.acceptFlags) hslot 4).symm.trans hu
  have start : SameButRecord s.acceptFlags s.acceptFlags := ⟨_, _, rfl⟩
  obtain ⟨v, hv, hrel, hidle'⟩ := start.execAll_acq 5 hs rfl hrounds (allSensors.map .filt)
  have hlref : u.lref = false := by
    obtain ⟨e, trace, -⟩ := runRounds_trace s.acceptFlags
    rw [hu] at trace
    exact trace.lref
  obtain ⟨w, hw, hend⟩ := hrel.execAll_filt allSensors hidle' hlref hwfull
  have hlast : SameButRecord w (runEnd u) := hend.symm.respond _
  exact ⟨w, (execAll_acq_acceptFlags s _).symm.trans (hv.trans hw), hlast.eq⟩

/-! ### RUN from another window (R169, items 1 and 3) -/

/-- The two states differ at most in the samples of WIN, and the marks of written slots, of places outside `A`. -/
structure AgreeOn (A : Set (Sensor × Slot)) (s t : State) : Prop where
  rest    : ∃ w g, t = { s with win := w, winWritten := g }
  samples : ∀ p ∈ A, Grid.get t.win p.1 p.2 = Grid.get s.win p.1 p.2
  marks   : ∀ p ∈ A, Grid.get t.winWritten p.1 p.2 = Grid.get s.winWritten p.1 p.2

section AgreeOn

variable {A B : Set (Sensor × Slot)} {s t : State}

theorem AgreeOn.mono (h : AgreeOn A s t) (hBA : B ⊆ A) : AgreeOn B s t :=
  ⟨h.rest, fun p hp => h.samples p (hBA hp), fun p hp => h.marks p (hBA hp)⟩

theorem AgreeOn.eq (h : AgreeOn A s t) (hA : ∀ p, p ∈ A) : t = s := by
  obtain ⟨⟨w, g, rfl⟩, hw, hg⟩ := h
  have hwin : w = s.win := Grid.ext_get _ _ fun x k => hw (x, k) (hA _)
  have hmarks : g = s.winWritten := Grid.ext_get _ _ fun x k => hg (x, k) (hA _)
  rw [hwin, hmarks]

theorem agreeOn_busRel (A : Set (Sensor × Slot)) : BusRel (AgreeOn A) where
  port := by rintro s t ⟨⟨w, g, rfl⟩, -, -⟩; rfl
  cfg := by rintro s t ⟨⟨w, g, rfl⟩, -, -⟩; rfl
  env := by rintro s t ⟨⟨w, g, rfl⟩, -, -⟩; rfl
  draws := by rintro s t ⟨⟨w, g, rfl⟩, -, -⟩; rfl
  logEvent := by rintro s t e v ⟨⟨w, g, rfl⟩, hw, hg⟩; exact ⟨⟨w, g, rfl⟩, hw, hg⟩
  setCurport := by rintro s t c ⟨⟨w, g, rfl⟩, hw, hg⟩; exact ⟨⟨w, g, rfl⟩, hw, hg⟩
  raise := by rintro s t ⟨⟨w, g, rfl⟩, hw, hg⟩; exact ⟨⟨w, g, rfl⟩, hw, hg⟩
  hang := by rintro s t ⟨⟨w, g, rfl⟩, hw, hg⟩; exact ⟨⟨w, g, rfl⟩, hw, hg⟩

theorem AgreeOn.wslot (h : AgreeOn A s t) : t.wslot = s.wslot := by
  obtain ⟨⟨w, g, rfl⟩, -, -⟩ := h; rfl

theorem AgreeOn.wfull (h : AgreeOn A s t) : t.wfull = s.wfull := by
  obtain ⟨⟨w, g, rfl⟩, -, -⟩ := h; rfl

theorem AgreeOn.setCursor (h : AgreeOn A s t) (k : Slot) (f : Bool) : AgreeOn A (s.setCursor k f) (t.setCursor k f) := by
  obtain ⟨⟨w, g, rfl⟩, hw, hg⟩ := h
  exact ⟨⟨w, g, rfl⟩, hw, hg⟩

theorem AgreeOn.beginRound (h : AgreeOn A s t) : AgreeOn A (beginRound s) (beginRound t) := by
  simp only [Machine.beginRound, h.wslot]
  split
  · exact h.setCursor _ _
  · exact h

theorem AgreeOn.endRound (h : AgreeOn A s t) (k : Slot) : AgreeOn A (endRound k s) (endRound k t) := by
  simp only [Machine.endRound, h.wfull]
  split <;> exact h.setCursor _ _

/-- The place a sample is stored at is one more on which both states agree. -/
theorem AgreeOn.setSample (h : AgreeOn A s t) (x : Sensor) (k : Slot) (v : Vector3i8) :
    AgreeOn (insert (x, k) A) (s.setSample x k v) (t.setSample x k v) := by
  obtain ⟨⟨w, g, rfl⟩, hw, hg⟩ := h
  have old {p : Sensor × Slot} (hp : p ∈ insert (x, k) A) (hne : ¬ (x = p.1 ∧ k = p.2)) : p ∈ A :=
    hp.resolve_left fun hpe => hne (by rw [hpe]; exact ⟨rfl, rfl⟩)
  refine ⟨⟨_, _, rfl⟩, fun p hp => ?_, fun p hp => ?_⟩
  · simp only [State.setSample_win, Grid.get_set]
    split
    case isTrue => rfl
    case isFalse hne => exact hw p (old hp hne)
  · simp only [State.setSample_winWritten, Grid.get_set]
    split
    case isTrue => rfl
    case isFalse hne => exact hg p (old hp hne)

theorem AgreeOn.acqSensors (h : AgreeOn A s t) (k : Slot) (l : List Sensor) :
    FlowRel (AgreeOn (A ∪ {p | p.1 ∈ l ∧ p.2 = k})) (fun _ _ => True) (acqSensors k l s) (acqSensors k l t) := by
  induction l generalizing A s t with
  | nil => exact ⟨rfl, h.mono (by simp)⟩
  | cons x l ih =>
    have first := (agreeOn_busRel A).acqSensor h k x fun _ _ v g => g.setSample x k v
    refine (first.mono (fun _ _ g => g) fun _ _ _ => trivial).bind fun _ _ _ g =>
      (ih g).mono (fun _ _ r => r.mono ?_) fun _ _ r => r
    rintro ⟨y, j⟩ hp
    simp only [Set.mem_union, Set.mem_ofPred_eq, List.mem_cons, Set.mem_insert_iff, Prod.mk.injEq] at hp ⊢
    tauto

/-- A round makes both states agree on the slot it writes. -/
theorem AgreeOn.acqRound (h : AgreeOn A s t) :
    FlowRel (AgreeOn (A ∪ {p | p.2 = s.wslot})) (fun _ _ => True) (acqRound s) (acqRound t) := by
  rw [Machine.acqRound, Machine.acqRound, h.wslot]
  refine (h.beginRound.acqSensors s.wslot allSensors).bind fun _ _ _ g => ⟨rfl, (g.endRound _).mono ?_⟩
  rintro p (hp | hp)
  · exact .inl hp
  · exact .inr ⟨mem_allSensors p.1, hp⟩

/-- The rounds left of a cycle lead two states that agree on the slots it has written to the same end. -/
theorem AgreeOn.acqRounds {n : Nat} {u : State} (h : AgreeOn {p | p.2.val < s.wslot.val} s t)
    (hn : s.wslot.val + n = 5) (hu : acqRounds n s = .done () u) : acqRounds n t = .done () u := by
  induction n generalizing s t with
  | zero => omega
  | succ n ih =>
    obtain ⟨s', hs', hrest⟩ := acqRounds_succ_done hu
    obtain ⟨t', ht', hagree⟩ := h.acqRound.of_done hs'
    rw [Machine.acqRounds, ht', Flow.bind_done]
    by_cases h4 : s.wslot = 4
    · have all (p : Sensor × Slot) : p ∈ {p : Sensor × Slot | p.2.val < s.wslot.val} ∪ {p | p.2 = s.wslot} := by
        simp only [Set.mem_union, Set.mem_ofPred_eq, h4, Fin.ext_iff]
        omega
      rwa [hagree.eq all]
    · have next := (acqRound_done hs').wslot_val h4
      refine ih (hagree.mono fun p hp => ?_) (by omega) hrest
      simp only [Set.mem_union, Set.mem_ofPred_eq, Fin.ext_iff, next] at hp ⊢
      omega

end AgreeOn

/-- Settles O42: RUN starts at slot 0, where two windows need agree on nothing, and its rounds make them agree. -/
theorem runForgetsTheOldWindow : Obligations.RunForgetsTheOldWindow := by
  intro s t w g k f h hidle
  obtain ⟨hs, u, hu, rfl⟩ := exec_run_completes_iff.1 ⟨h, hidle⟩
  have start : AgreeOn {p | p.2.val < (s.acceptFlags.setCursor 0 false).wslot.val} (s.acceptFlags.setCursor 0 false)
      ((s.withWindow w g k f).acceptFlags.setCursor 0 false) :=
    ⟨⟨w, g, rfl⟩, fun _ hp => absurd hp (Nat.not_lt_zero _), fun _ hp => absurd hp (Nat.not_lt_zero _)⟩
  obtain ⟨hexec, -⟩ := (exec_run_completes_iff (s := s.withWindow w g k f)).2 ⟨hs, u, start.acqRounds rfl hu, rfl⟩
  exact hexec

end Sys2Proof.Machine
end

section
/-! PROOFS. The bus traffic of a RUN without failure (42_filter R174): round by round. -/

namespace Sys2Proof.Machine

/-! ### Primitives without a failure, counted by kind -/

/-- The primitives of `n` register reads and `p` selections, none of which failed. -/
structure CleanEvents (events : List Event) (n p : Nat) : Prop where
  addressWrites : events.countP Event.isAddressWrite = n
  reads         : events.countP Event.isRead = n
  selections    : events.countP Event.isSelection = p
  length        : events.length = 2 * n + p
  noFailure     : events.any Event.failed = false

theorem CleanEvents.append {d e : List Event} {m n p q : Nat} (h : CleanEvents d m p) (g : CleanEvents e n q) :
    CleanEvents (d ++ e) (m + n) (p + q) where
  addressWrites := by rw [List.countP_append, h.addressWrites, g.addressWrites]
  reads := by rw [List.countP_append, h.reads, g.reads]
  selections := by rw [List.countP_append, h.selections, g.selections]
  length := by rw [List.length_append, h.length, g.length]; ring
  noFailure := by rw [List.any_append, h.noFailure, g.noFailure]; rfl

theorem cleanEvents_roundTrace (c : Params) (l : List Answer) : CleanEvents (roundTrace c l) 12 4 :=
  ⟨rfl, rfl, rfl, rfl, rfl⟩

theorem cleanEvents_port6Trace (c : Params) (l : List Answer) (i : Nat) : CleanEvents (port6Trace c l i) 12 3 :=
  ⟨rfl, rfl, rfl, rfl, rfl⟩

/-! ### Rounds without a failure (R144) -/

/-- From `s` to `t` the block did the primitives `events`, which left the script `rest` and port 5, the last sensor's,
selected. -/
structure CleanRounds (s t : State) (rest : List Answer) (events : List Event) : Prop where
  env     : t.env = .script rest
  hist    : t.hist = s.hist ++ events
  curport : t.curport = some 5#3

theorem SensorsDone.round {s u : State} {events : List Event} {rest : List Answer} {v : Sensor → Vector3i8}
    (h : SensorsDone s.wslot (beginRound s) u events rest v) (hport : portAfter s.curport events = some 5#3) :
    ∃ t, acqRound s = .done () t ∧ CleanRounds s t rest events := by
  have hround : acqRound s = .done () (endRound s.wslot u) := by rw [acqRound, h.run, Flow.bind_done]
  have hhist : (endRound s.wslot u).hist = s.hist ++ events := by rw [endRound_hist, h.hist, beginRound_hist]
  obtain ⟨e, trace, -⟩ := acqRound_trace s
  rw [hround] at trace
  obtain rfl : e = events := List.append_cancel_left (trace.hist.symm.trans hhist)
  exact ⟨_, hround, by rw [endRound_env, h.env], hhist, trace.curport.trans hport⟩

/-- The selections of a failure-free round: the first is skipped where port 6 is current (R114, R144). -/
def roundSelections (s : State) : Nat := if s.curport = some 6#3 then 3 else 4

theorem acqRound_ok {s : State} {l rest : List Answer} (hl : ∀ a ∈ l, isOk a = true)
    (hlen : l.length = 24 + roundSelections s) (he : s.env = .script (l ++ rest)) :
    ∃ t events, acqRound s = .done () t ∧ CleanRounds s t rest events ∧
      CleanEvents events 12 (roundSelections s) := by
  by_cases hp : s.curport = some 6#3
  · rw [roundSelections, if_pos hp] at hlen ⊢
    obtain ⟨u, hu⟩ := acqSensors_port6 (s := beginRound s) (rest := rest) hl (i := 0) (by omega) (by simpa using hp)
      (by simpa using he) s.wslot
    obtain ⟨t, ht, clean⟩ := hu.round rfl
    exact ⟨t, _, ht, clean, cleanEvents_port6Trace _ _ _⟩
  · rw [roundSelections, if_neg hp] at hlen ⊢
    obtain ⟨u, hu⟩ := acqSensors_otherPort (s := beginRound s) (rest := rest) hl hlen (by simpa using hp)
      (by simpa using he) s.wslot
    obtain ⟨t, ht, clean⟩ := hu.round rfl
    exact ⟨t, _, ht, clean, cleanEvents_roundTrace _ _⟩

/-- The rounds after the first start from port 5, where the last sensor is, and select every port anew. -/
theorem acqRounds_ok (n : Nat) {s : State} {l rest : List Answer} (hl : ∀ a ∈ l, isOk a = true)
    (hlen : l.length = 24 + roundSelections s + 28 * n) (he : s.env = .script (l ++ rest)) :
    ∃ t events, acqRounds (n + 1) s = .done () t ∧ CleanRounds s t rest events ∧
      CleanEvents events (12 + 12 * n) (roundSelections s + 4 * n) := by
  induction n generalizing s l with
  | zero =>
    obtain ⟨t, events, ht, clean⟩ := acqRound_ok hl hlen he
    exact ⟨t, events, by rw [acqRounds, ht]; rfl, clean⟩
  | succ n ih =>
    have hsplit : l = l.take (24 + roundSelections s) ++ l.drop (24 + roundSelections s) :=
      (List.take_append_drop _ _).symm
    obtain ⟨u, d, hu, first, hd⟩ := acqRound_ok (s := s) (l := l.take (24 + roundSelections s))
      (rest := l.drop (24 + roundSelections s) ++ rest) (fun a ha => hl a (List.mem_of_mem_take ha))
      (by rw [List.length_take]; omega) (by rw [he, ← List.append_assoc, ← hsplit])
    have hfour : roundSelections u = 4 := by rw [roundSelections, first.curport]; rfl
    obtain ⟨t, e, ht, others, he'⟩ := ih (s := u) (l := l.drop (24 + roundSelections s))
      (fun a ha => hl a (List.mem_of_mem_drop ha)) (by rw [List.length_drop]; omega) first.env
    refine ⟨t, d ++ e, by rw [acqRounds, hu, Flow.bind_done, ht], ⟨others.env, ?_, others.curport⟩, ?_⟩
    · rw [others.hist, first.hist, List.append_assoc]
    · rw [hfour] at he'
      convert hd.append he' using 1 <;> ring

/-- Settles O44: the five failure-free rounds make 60 register reads and their selections, and the filter none. -/
theorem runBusTraffic : Obligations.RunBusTraffic := by
  intro s l rest hs hl hlen he
  have hselect : roundSelections (s.acceptFlags.setCursor 0 false) = if s.curport = some 6#3 then 3 else 4 := rfl
  obtain ⟨u, events, hu, ⟨henv, hhist, hport⟩, clean⟩ := acqRounds_ok 4 (s := s.acceptFlags.setCursor 0 false) hl
    (by rw [hlen, hselect]; split_ifs <;> rfl) he
  obtain ⟨hexec, hidle⟩ := exec_run_completes_iff.2 ⟨hs, u, hu, rfl⟩
  have hhist' : (runEnd u).hist = s.hist ++ events := (runEnd_hist u).trans hhist
  obtain ⟨e, trace⟩ := exec_trace hexec
  obtain rfl : e = events := List.append_cancel_left (trace.hist.symm.trans hhist')
  rw [hselect] at clean
  refine ⟨runEnd u, e, hexec, hidle, (runEnd_env u).trans henv, (runEnd_curport u).trans hport, hhist', ?_,
    clean.addressWrites, clean.reads, ?_, trace.fromBlock, trace.lberr.trans clean.noFailure⟩
  · rw [clean.length, hlen]; split_ifs <;> rfl
  · rw [clean.selections]; split_ifs <;> rfl

end Sys2Proof.Machine
end

section
/-! PROOFS. The hang (10_state R31, 60_exceptions R194, R199): how a command comes to end stuck, and that a stuck block
does nothing more. -/

namespace Sys2Proof.Machine

/-! ### How a command ends stuck -/

/-- Settles O50: the trace of the command tells where it stalled, and a command that ends stuck hung in silence. -/
theorem stuckExactlyAfterStall : Obligations.StuckExactlyAfterStall := by
  intro i s t h
  obtain ⟨events, tr⟩ := exec_trace h
  refine ⟨events, tr.hist, by rw [tr.stuck, List.any_eq_true], tr.last, fun hstuck => ?_⟩
  rcases exec_ends h with ⟨-, hsilent⟩ | ⟨hidle, -⟩
  · exact hsilent
  · simp [hidle] at hstuck

/-! ### A stuck block -/

section Stuck
variable {s : State} (hs : s.stuck = true)
include hs

theorem execute_stuck (body : State → Flow Byte) : execute body s = .fault .stuck := if_pos hs

theorem executeRefused_stuck : executeRefused s = .fault .stuck := if_pos hs

/-- Every command is accepted or refused through its wrapper, FILT through either (R118, R168). -/
theorem exec_stuck (i : Instr) : exec i s = .fault .stuck := by
  cases i with
  | selport p => exact execute_stuck hs _
  | rdreg p r => exact execute_stuck hs _
  | acq => exact execute_stuck hs _
  | filt x =>
    cases hw : s.wfull with
    | true => rw [exec_filt_full x s hw, execute_stuck hs]
    | false => rw [exec_filt_partial x s hw, executeRefused_stuck hs]
  | run => exact execute_stuck hs _

theorem step_stuck : step s = stuckStep s := if_pos hs

end Stuck

theorem stuckStep_of_no_reset {s : State} (h : ∀ a ∈ s.host, a ≠ .reset ∧ a ≠ .resetDuringCommand) :
    stuckStep s = .fault .stuck := by
  refine if_neg fun hany => ?_
  obtain ⟨a, ha, hreset⟩ := List.any_eq_true.1 hany
  exact not_or.2 (h a ha) (HostAction.isReset_iff.1 hreset)

/-- Settles O11: only a pending reset gets a stuck block a step, and no command does. -/
theorem stuckBlockHasNoStep : Obligations.StuckBlockHasNoStep := fun _ hs =>
  ⟨fun h => (step_stuck hs).trans (stuckStep_of_no_reset h), exec_stuck hs⟩

end Sys2Proof.Machine
end

section
/-! PROOFS. Reset (70_reset R220 to R222) and the hazard of another master's routing (R224). -/

namespace Sys2Proof.Machine

/-! ### Reset -/

section Reset
variable {s : State} {a : HostAction} {before after : List HostAction}

/-- A stuck block takes the first pending reset, wherever it stands in the host's list (R94, R222). -/
theorem stuckStep_reset (ha : a.isReset = true) (hh : s.host = before ++ a :: after)
    (hb : ∀ b ∈ before, ¬ b.isReset = true) :
    stuckStep s = .next { s with host := before ++ after }.resetMidTransaction := by
  have hany : s.host.any HostAction.isReset = true := by simp [hh, ha]
  rw [stuckStep, if_pos hany, hh, List.eraseP_append_right _ hb, List.eraseP_cons_of_pos ha]

/-- An idle block takes a reset that is next; between commands the environment stays, during one it does not (R221, R222). -/
theorem step_reset_idle (hs : s.idle) (ha : a = .reset ∨ a = .resetDuringCommand) (hh : s.host = a :: after) :
    step s = .next { { s with host := after }.resetBlock with env := if a = .reset then s.env else .script [] } := by
  rcases ha with rfl | rfl <;> exact step_hostAct hs hh (by simp)

/-- However a reset comes, the step is `resetBlock` on the state without the action, and the way it comes decides only
which environment the state after it has (R220 to R222). -/
theorem step_reset (ha : a = .reset ∨ a = .resetDuringCommand) (hh : s.host = before ++ a :: after)
    (hidle : s.stuck = false → before = []) (hb : ∀ b ∈ before, b ≠ .reset ∧ b ≠ .resetDuringCommand) :
    ∃ env, step s = .next { { s with host := before ++ after }.resetBlock with env := env } ∧
      (s.stuck = false → a = .reset → env = s.env) ∧
      (s.stuck = true ∨ a = .resetDuringCommand → env = .script []) := by
  cases hs : s.stuck with
  | true =>
    have hfirst : ∀ b ∈ before, ¬ b.isReset = true := fun b hmem hreset =>
      not_or.2 (hb b hmem) (HostAction.isReset_iff.1 hreset)
    exact ⟨.script [], (step_stuck hs).trans (stuckStep_reset (HostAction.isReset_iff.2 ha) hh hfirst),
      nofun, fun _ => rfl⟩
  | false =>
    obtain rfl := hidle hs
    exact ⟨_, step_reset_idle hs ha hh, fun _ h => if_pos h, fun h => h.elim nofun fun h => if_neg (by simp [h])⟩

end Reset

/-- Settles O10: whatever the reset interrupts, the block is `resetBlock` afterwards. -/
theorem resetFromAnyState : Obligations.ResetFromAnyState := by
  intro s a before after ha hh hidle hb
  obtain ⟨env, hstep, hkept, hfree⟩ := step_reset ha hh hidle hb
  exact ⟨_, hstep, rfl, rfl, rfl, Memory.read_nil, rfl, rfl, rfl, rfl, rfl, rfl, rfl, rfl, rfl, rfl, hkept, hfree⟩

/-! ### Routing that CURPORT does not tell -/

/-- Settles O59: CURPORT makes `ReadReg` skip the selection, and the register phases read what is really connected. -/
theorem wrongRoutingReadsWrongSensor : Obligations.WrongRoutingReadsWrongSensor := by
  intro p q r s e d hs he hdev hport hrouting hd
  have hphases := registerPhases_device (s := s.acceptFlags) he ⟨hdev, hrouting⟩ hd r
  exact ⟨_, exec_rdreg_current hs hport hphases, rfl, rfl, hport⟩

end Sys2Proof.Machine
end
